-- ==== Sys2Proof/Word.lean ====
section
/-! DEFINITION. The value types of PSD (00_scope.md R9, R10): every register value is a 32-bit vector,
memory is an array of 8-bit bytes, an instruction names a register in five bits, and Sv32 forms physical
addresses of 34 bits (20_memory.md R106). -/

namespace Sys2Proof

/-- A 32-bit register value, address or instruction word (R10). -/
abbrev Word := BitVec 32

/-- One byte of memory (20_memory.md R103). -/
abbrev Byte := BitVec 8

/-- A register number as an instruction names it: five bits (30_encoding.md R182). -/
abbrev Reg := BitVec 5

/-- A 12-bit CSR address (30_encoding.md R189). -/
abbrev CsrAddr := BitVec 12

/-- A physical address as translation forms it: 34 bits (20_memory.md R106, R137). -/
abbrev PAddr := BitVec 34

end Sys2Proof
end

