-- ==== Sys2Proof/Config.lean ====
section
/-! DEFINITION. What an implementation fixes, and the free values.

The named parameters of 00_scope.md R7 are the fields of `Config`. A `Config` is plain data held in the state
(it never changes during a run), so a statement about every state is a statement about every value of every
parameter. What the spec leaves open at each use ("any value", 93_implementation_defined.md) is an opaque
constant below, applied to a counter of the state: nothing can be proved of its value. -/

namespace Sys2Proof

/-- The two readings of the `satp` layout (R7, 10_state.md R55, conflict C5). -/
inductive SatpLayout where
  /-- MODE is bit 31; bit 30 is reserved. The spec's default. -/
  | riscv
  /-- MODE is bits 31:30, the source's literal text. -/
  | psdText
  deriving DecidableEq, Repr

/-- What stands behind a region of the platform's own. -/
inductive RegionKind where
  /-- Bytes that read as last written: more RAM, or a ROM when stores are not permitted. -/
  | memory
  /-- A device whose behaviour the spec does not give (60_exceptions.md R464). -/
  | device
  deriving DecidableEq, Repr

/-- A region the platform adds to the address map: the platform's choice in `PhysAccessOK` for addresses
that are neither RAM nor a CLINT register at its natural size (20_memory.md R107). -/
structure Region where
  base : Nat
  size : Nat
  kind : RegionKind
  allowFetch : Bool
  allowLoad : Bool
  allowStore : Bool
  deriving DecidableEq, Repr

/-- The named parameters of 00_scope.md R7. -/
structure Config where
  /-- `RESET_VECTOR`. -/
  resetVector : Word
  /-- `RAM_SIZE`, in bytes. -/
  ramSize : Nat
  /-- `CLINT_BASE`. -/
  clintBase : Word
  /-- The platform's part of `PhysAccessOK`; none by default, so that vacant addresses fault. -/
  regions : List Region
  /-- `TLB_ENTRIES` of the ITLB. -/
  itlbEntries : Nat
  /-- `TLB_ENTRIES` of the DTLB. -/
  dtlbEntries : Nat
  /-- `SATP_LAYOUT`. -/
  satpLayout : SatpLayout
  /-- `VECTORED_SYNC_EXCEPTIONS`. -/
  vectoredSyncExceptions : Bool
  /-- `OWN_STORE_CLEARS_RESERVATION`. -/
  ownStoreClearsReservation : Bool
  /-- `TVAL_ILLEGAL_IS_INSTR`. -/
  tvalIllegalIsInstr : Bool
  /-- `HAS_COUNTER_CSRS`. -/
  hasCounterCsrs : Bool
  /-- `SEIP_EXTERNAL_LINE`. -/
  seipExternalLine : Bool
  deriving DecidableEq, Repr

/-- `RAM_BASE`, fixed by the source: "RAM at 0x80000000" (20_memory.md R105). -/
def ramBase : Nat := 0x80000000

/-- The constraints 00_scope.md R7 puts on the parameters. -/
def Config.wf (c : Config) : Bool :=
  c.resetVector.extractLsb' 0 2 == 0#2 && c.ramSize % 4 == 0 && ramBase + c.ramSize ≤ 2 ^ 32 &&
    c.clintBase.extractLsb' 0 2 == 0#2

/-! ### Free values

Each is applied to the draw counter of the state, which grows between two uses of the same constant. -/

/-- `OWN_STORE_CLEARS_RESERVATION` of the machine after reset: "implementation-defined for single-core"
(44_a_extension.md R316, U3). -/
opaque Config.anyOwnStoreClears : Bool

/-- ITLB size of the machine after reset: not given (00_scope.md R7, U14). -/
opaque Config.anyItlbEntries : Nat

/-- DTLB size of the machine after reset: not given (00_scope.md R7, U14). -/
opaque Config.anyDtlbEntries : Nat

/-- Whether a TLB entry (its vpn, its pte, whether it is a megapage) is still cached: "the hardware may drop
any entry at any time" (10_state.md R65, U14). -/
opaque Config.tlbKeeps : Nat → BitVec 20 → Word → Bool → Bool

/-- Which of the matching TLB entries a translation uses; past the last one, it walks (20_memory.md R140). -/
opaque Config.tlbChoice : Nat → Nat

/-- Whether a cached entry that fails its permission check raises the page fault at once or is dropped and
re-walked (20_memory.md R140). -/
opaque Config.tlbFaultsAtOnce : Nat → Bool

/-- Whether a successful walk is cached ("optionally insert", 20_memory.md R140). -/
opaque Config.tlbFills : Nat → Bool

/-- Which value a fetch sees for byte `k` of its word when a recent store changed that byte
(20_memory.md R160 (b), U5). -/
opaque Config.fetchPick : Nat → Nat → Nat

/-- How far `mcycle` advances in a step: "a free 64-bit value that does not decrease" (10_state.md R62). -/
opaque Config.cycleAdvance : Nat → BitVec 64

/-- What an external reset leaves in the `k`-th register it does not define (10_state.md R25, U1, U2, U9). -/
opaque Config.resetWord : Nat → Nat → Word

/-- Whether the byte at an address that the instruction in flight at a reset was storing has reached memory
(70_reset_and_hazards.md R483, U19). -/
opaque Config.storeLands : Nat → Nat → Bool

/-- Whether an external reset leaves the reservation valid (10_state.md R64, U6). -/
opaque Config.resetReservation : Nat → Bool

end Sys2Proof
end

