-- ==== Sys2Proof/Machine/State.lean ====
section
/-! DEFINITION. The state of PSD: every piece of architectural state the spec gives (10_state.md R20), what
bounds a program's view of the fetch path, the environment's coming inputs, and the state after reset
(10_state.md R69). Plain data throughout. -/

namespace Sys2Proof.Machine

/-! ### Names of the machine -/

/-- Privilege modes (00_scope.md R3, 10_state.md R30). -/
inductive Priv where
  | U
  | S
  | M
  deriving DecidableEq, Repr

/-- Synchronous exceptions (60_exceptions.md R401). -/
inductive Exc where
  | instructionAddressMisaligned
  | instructionAccessFault
  | illegalInstruction
  | breakpoint
  | loadAddressMisaligned
  | loadAccessFault
  | storeAmoAddressMisaligned
  | storeAmoAccessFault
  | environmentCallFromU
  | environmentCallFromS
  | environmentCallFromM
  | instructionPageFault
  | loadPageFault
  | storeAmoPageFault
  deriving DecidableEq, Repr

/-- Interrupt sources (60_exceptions.md R440). -/
inductive Interrupt where
  | mei
  | mti
  | msi
  | sei
  | sti
  | ssi
  deriving DecidableEq, Repr

/-- What an access is for (20_memory.md R107, R130). -/
inductive AccessKind where
  | fetch
  | load
  | store
  deriving DecidableEq, Repr

/-- How many bytes an explicit access moves (20_memory.md R110). -/
inductive Width where
  | byte
  | half
  | word
  deriving DecidableEq, Repr

/-- The level a leaf page-table entry was found at (20_memory.md R134): a megapage at level 1, a page at
level 0. -/
inductive Level where
  | page
  | megapage
  deriving DecidableEq, Repr

/-- The registers of the CLINT (60_exceptions.md R459). -/
inductive ClintReg where
  | msip
  | mtimecmpLow
  | mtimecmpHigh
  | mtimeLow
  | mtimeHigh
  deriving DecidableEq, Repr

/-- What answers a permitted physical access (20_memory.md R104, R105). -/
inductive Target where
  /-- RAM, or a memory region of the platform. -/
  | memory
  | clint (r : ClintReg)
  /-- A platform device whose behaviour the spec does not give. -/
  | device
  deriving DecidableEq, Repr

/-- The CSRs an instruction can reach: those of 10_state.md R32, and the counter CSRs that R62 gives when
`HAS_COUNTER_CSRS` is true. -/
inductive Csr where
  | sstatus
  | sie
  | stvec
  | sscratch
  | sepc
  | scause
  | stval
  | sip
  | satp
  | mstatus
  | misa
  | medeleg
  | mideleg
  | mie
  | mtvec
  | mscratch
  | mepc
  | mcause
  | mtval
  | mip
  | mvendorid
  | marchid
  | mimpid
  | mhartid
  | scounteren
  | mcounteren
  | mcycle
  | mcycleh
  | minstret
  | minstreth
  /-- `mhpmcounter*` and `mhpmevent*`: read zero, ignore writes. -/
  | hpmZero
  deriving DecidableEq, Repr

/-- What a CSR address names (10_state.md R32, R62, R63). -/
inductive CsrLookup where
  | present (c : Csr)
  /-- R62 without `HAS_COUNTER_CSRS`: the behaviour of the chip is unknown. -/
  | unknown
  /-- R63, and the rest of R62 with `HAS_COUNTER_CSRS`: not implemented. -/
  | absent
  deriving DecidableEq, Repr

/-! ### Parts of the state -/

/-- The LR/SC reservation: valid bit and physical word address (10_state.md R64). -/
structure Reservation where
  valid : Bool
  addr : Word
  deriving DecidableEq, Repr

/-- A cached leaf translation (10_state.md R65). -/
structure TlbEntry where
  vpn : BitVec 20
  pte : Word
  level : Level
  deriving DecidableEq, Repr

/-- An ITLB entry that an SFENCE.VMA removed while the next `fetches` instructions may already have been
fetched through it (46_system.md R366). -/
structure GhostEntry where
  entry : TlbEntry
  fetches : Nat
  deriving DecidableEq, Repr

/-- A byte of memory that a recent store changed: the next `fetches` instruction fetches may still see `old`
(20_memory.md R160). -/
structure StaleByte where
  addr : Nat
  old : Byte
  fetches : Nat
  deriving DecidableEq, Repr

/-- What the environment does between two instructions (00_scope.md R8, R12 step 1). -/
inductive EnvEvent where
  /-- The machine external interrupt line takes this level (60_exceptions.md R441). -/
  | extIrqM (level : Bool)
  /-- The supervisor external interrupt line takes this level (R441). -/
  | extIrqS (level : Bool)
  /-- `mtime` advances (60_exceptions.md R460). -/
  | tick (amount : Nat)
  /-- Another bus master writes bytes from a physical address up (20_memory.md R155). -/
  | foreignWrite (addr : Word) (bytes : List Byte)
  /-- The CLINT's machine software interrupt line takes this level (10_state.md R66, 60_exceptions.md R445, R461). -/
  | softwareIrq (level : Bool)
  /-- Another bus master stores a word to a CLINT register (60_exceptions.md R462). -/
  | foreignClintStore (addr value : Word)
  /-- The reset input is asserted (70_reset_and_hazards.md R480). -/
  | reset
  deriving DecidableEq, Repr

/-- Physical memory: address and byte, addresses strictly rising, no byte equal to what an unlisted address
reads as (20_memory.md R103; log 12). -/
abbrev Memory := List Host.Cell

/-! ### The state -/

/-- The state of the machine. Each field names its rule; INVENTORY.md lists them with their reset values. -/
structure State where
  /-- x0..x63; entry 0 is never read (10_state.md R21 to R23). -/
  regs : Vector Word 64
  /-- Address of the instruction being executed (R26). -/
  pc : Word
  /-- Current privilege mode (R30). -/
  priv : Priv
  /-- Also holds `sstatus` (R34, R35). -/
  mstatus : Word
  /-- Also holds `sie` (R37, R39). -/
  mie : Word
  /-- The stored bits of `mip` and `sip`: SEIP (9), STIP (5), SSIP (1) (R38, R39). -/
  mipSoft : Word
  /-- R40. -/
  mtvec : Word
  /-- R42. -/
  stvec : Word
  /-- R43. -/
  mepc : Word
  /-- R44. -/
  sepc : Word
  /-- R45. -/
  mcause : Word
  /-- R46. -/
  scause : Word
  /-- R47. -/
  mtval : Word
  /-- R48. -/
  stval : Word
  /-- R49. -/
  medeleg : Word
  /-- R50. -/
  mideleg : Word
  /-- R51. -/
  mscratch : Word
  /-- R52. -/
  sscratch : Word
  /-- R55, R56. -/
  satp : Word
  /-- Readable with `HAS_COUNTER_CSRS` only (R62). -/
  mcounteren : Word
  /-- Readable with `HAS_COUNTER_CSRS` only (R62). -/
  scounteren : Word
  /-- A free value that does not decrease (R62). -/
  mcycle : BitVec 64
  /-- Instructions retired since reset (R62). -/
  minstret : BitVec 64
  /-- R64. -/
  reservation : Reservation
  /-- R65. -/
  itlb : List TlbEntry
  /-- R65. -/
  dtlb : List TlbEntry
  /-- The machine external interrupt line (R66). -/
  extIrqM : Bool
  /-- The supervisor external interrupt line, seen when `SEIP_EXTERNAL_LINE` (R66). -/
  extIrqS : Bool
  /-- CLINT `msip` bit 0 (60_exceptions.md R461). -/
  msip : Bool
  /-- CLINT `mtime` (R460). -/
  mtime : BitVec 64
  /-- CLINT `mtimecmp` (R460). -/
  mtimecmp : BitVec 64
  /-- Physical memory (10_state.md R68, 20_memory.md R103). -/
  mem : Memory
  /-- Bytes whose old value a coming fetch may still see (20_memory.md R160). -/
  fetchWindow : List StaleByte
  /-- Removed ITLB entries a coming fetch may still have used (46_system.md R366). -/
  itlbGhosts : List GhostEntry
  /-- The pc of every instruction that completed, newest first: the PC trace output (60_exceptions.md R474). -/
  pcTrace : List Word
  /-- The model's own: what the environment does before each coming step (00_scope.md R12 step 1; log 13). -/
  inputs : List (List EnvEvent)
  /-- The model's own: the counter free values are applied to (log 31). -/
  draws : Nat
  /-- The model's own: the named parameters (00_scope.md R7; log 1). -/
  config : Config
  deriving DecidableEq, Repr

/-! ### How a step can stop -/

/-- Why the machine stops with a fault. Every fault the spec names is a trap, taken as a next state; nothing in
the ISA halts the hart (92_eei_decisions.md D39). -/
inductive Fault where
  /-- Raised by MRET when `mstatus.MPP` holds 10. The spec gives it no effect because the field cannot hold
  that value (46_system.md R364, 10_state.md R36); no run from reset reaches it. Safe. -/
  | mppReserved
  deriving DecidableEq, Repr

/-- Why a step has no meaning. -/
inductive Refusal where
  /-- Raised by `exec` for an instruction that has no meaning in the model. Safe. -/
  | notModelled (mnemonic : String)
  /-- Raised by a CSR instruction that passes the privilege and read-only checks and names a CSR of
  10_state.md R62 while `HAS_COUNTER_CSRS` is false: "a model must treat as refused". Safe. -/
  | unknownCsr (addr : CsrAddr)
  /-- Raised by an access that a region of the platform permits to a device whose behaviour the spec does not
  give (60_exceptions.md R464, 91_not_in_source.md N7, N20). Safe. -/
  | platformDevice
  deriving DecidableEq, Repr

/-- How a memory access ends. -/
inductive Access (α : Type) where
  /-- It completes with a value. -/
  | done (v : α) (s : State)
  /-- It raises an exception; the state keeps what a raising access leaves (60_exceptions.md R400). -/
  | raise (e : Exc) (s : State)
  /-- It has no meaning. -/
  | refused (r : Refusal)

/-- How a page-table walk ends, before the permission checks (20_memory.md R134). -/
inductive WalkResult where
  /-- A leaf entry, its physical address and its level. -/
  | leaf (pte : Word) (pteAddr : PAddr) (level : Level)
  | pageFault
  | accessFault
  | refused (r : Refusal)
  deriving DecidableEq, Repr

/-! ### Reset -/

/-- The parameters of the machine after `State.reset`: the spec's defaults where it gives them (00_scope.md R7),
RESET_VECTOR, RAM_SIZE and CLINT_BASE as logs 2 to 4 say, and a free value for the rest (logs 6, 7). -/
def standardConfig : Config where
  resetVector := 0x80000000#32
  ramSize := 0x00400000
  clintBase := 0x02000000#32
  regions := []
  itlbEntries := Config.anyItlbEntries
  dtlbEntries := Config.anyDtlbEntries
  satpLayout := .riscv
  vectoredSyncExceptions := false
  ownStoreClearsReservation := Config.anyOwnStoreClears
  tvalIllegalIsInstr := true
  hasCounterCsrs := false
  seipExternalLine := false

/-- The machine of parameters `c` right after reset (10_state.md R69, 70_reset_and_hazards.md R480 to R483).
The spec gives `pc`, `priv`, `mstatus`, `satp.MODE`, the TLBs, `msip` and `mtime`; the other values are
design choices (logs 8 to 14). -/
def State.resetWith (c : Config) : State where
  regs := Vector.replicate 64 0#32
  pc := c.resetVector
  priv := .M
  mstatus := 0#32
  mie := 0#32
  mipSoft := 0#32
  mtvec := 0#32
  stvec := 0#32
  mepc := 0#32
  sepc := 0#32
  mcause := 0#32
  scause := 0#32
  mtval := 0#32
  stval := 0#32
  medeleg := 0#32
  mideleg := 0#32
  mscratch := 0#32
  sscratch := 0#32
  satp := 0#32
  mcounteren := 0#32
  scounteren := 0#32
  mcycle := 0#64
  minstret := 0#64
  reservation := ⟨false, 0#32⟩
  itlb := []
  dtlb := []
  extIrqM := false
  extIrqS := false
  msip := false
  mtime := 0#64
  mtimecmp := 0#64
  mem := []
  fetchWindow := []
  itlbGhosts := []
  pcTrace := []
  inputs := []
  draws := 0
  config := c

/-- The machine right after reset. -/
def State.reset : State := State.resetWith standardConfig

end Sys2Proof.Machine
end

