-- ==== Sys2Proof/Machine/Bits.lean ====
section
/-! DEFINITION. Helpers on bit fields (00_scope.md R9). -/

namespace Sys2Proof.Machine

/-- `w` with bit `i` set to `b`. -/
def setBit (w : Word) (i : Nat) (b : Bool) : Word :=
  if b then w ||| (1#32 <<< i) else w &&& ~~~(1#32 <<< i)

/-- `old` with the bits of `mask` taken from `v`: a masked register write (10_state.md R33, R57). -/
def writeMasked (mask old v : Word) : Word := (old &&& ~~~mask) ||| (v &&& mask)

/-- 0 or 1 as a register value. -/
def boolWord (b : Bool) : Word := if b then 1#32 else 0#32

/-- The two bits that stand for a privilege mode (10_state.md R30). -/
def Priv.bits : Priv → BitVec 2
  | .U => 0b00#2
  | .S => 0b01#2
  | .M => 0b11#2

/-- The privilege mode two bits stand for; 10 stands for none (R30). -/
def privOfBits (b : BitVec 2) : Option Priv :=
  if b = 0b00#2 then some .U
  else if b = 0b01#2 then some .S
  else if b = 0b11#2 then some .M
  else none

/-- Bytes an access of the width moves (20_memory.md R110). -/
def Width.bytes : Width → Nat
  | .byte => 1
  | .half => 2
  | .word => 4

end Sys2Proof.Machine
end

