-- ==== Sys2Proof/Machine/Operands.lean ====
section
/-! DEFINITION. The operand forms of PSD: immediates (30_encoding.md R183 to R189), general registers
(10_state.md R21 to R23), and the one addressing mode (42_rv32i_loadstore.md R270). -/

namespace Sys2Proof.Machine

/-! ### Immediates -/

/-- I-type: sign-extended (R183). -/
def immI (imm : BitVec 12) : Word := imm.signExtend 32

/-- S-type: sign-extended (R184). -/
def immS (imm : BitVec 12) : Word := imm.signExtend 32

/-- B-type: sign-extended (R185). -/
def immB (offset : BitVec 13) : Word := offset.signExtend 32

/-- U-type: twelve zeros below (R186). -/
def immU (imm20 : BitVec 20) : Word := imm20 ++ 0#12

/-- J-type: sign-extended (R187). -/
def immJ (offset : BitVec 21) : Word := offset.signExtend 32

/-- CSR immediate: zero-extended (R189). -/
def immZ (uimm : BitVec 5) : Word := uimm.setWidth 32

/-! ### General registers -/

/-- The 6-bit port address of a 5-bit register field (10_state.md R21). -/
def portOf (r : Reg) : Fin 64 := (r.setWidth 6).toFin

/-- Read a register through its port: entry 0 always reads zero (R22). -/
def readPort (regs : Vector Word 64) (p : Fin 64) : Word := if p = 0 then 0#32 else regs.get p

/-- `x[r]` (R22). -/
def State.x (s : State) (r : Reg) : Word := readPort s.regs (portOf r)

/-- Write a register through its port: "If rd_addr == 0, write is ignored" (R23). -/
def writePort (regs : Vector Word 64) (p : Fin 64) (v : Word) : Vector Word 64 :=
  if p = 0 then regs else regs.set p v

/-- `x[r] <- v` (R23). -/
def State.setX (s : State) (r : Reg) (v : Word) : State := { s with regs := writePort s.regs (portOf r) v }

/-! ### Addresses -/

/-- Base register plus displacement, modulo 2^32 (42_rv32i_loadstore.md R270). -/
def effectiveAddress (s : State) (base : Reg) (displacement : Word) : Word := s.x base + displacement

/-- The address is a multiple of the width (20_memory.md R111). -/
def aligned (a : Word) : Width → Bool
  | .byte => true
  | .half => a.extractLsb' 0 1 == 0#1
  | .word => a.extractLsb' 0 2 == 0#2

/-- A jump or branch target is misaligned when bit 1 or bit 0 is set (41_rv32i_control.md R251). -/
def misalignedTarget (t : Word) : Bool := t.extractLsb' 0 2 != 0#2

/-- The shift amount a register supplies: its low five bits (40_rv32i_compute.md R234). -/
def shiftAmount (v : Word) : Nat := (v.extractLsb' 0 5).toNat

end Sys2Proof.Machine
end

