-- ==== Sys2Proof/Machine/Flags.lean ====
section
/-! DEFINITION. PSD has no condition codes, carry or overflow flags (10_state.md R31): comparisons write 0 or 1
to a register or decide a branch. This file holds those comparisons and the fields of `mstatus`, the one
register whose bits hold the machine's status (10_state.md R34). -/

namespace Sys2Proof.Machine

/-! ### Comparisons (00_scope.md R10) -/

/-- 1 when `a < b` as signed integers, else 0 (SLT, SLTI). -/
def setLess (a b : Word) : Word := boolWord (a.slt b)

/-- 1 when `a < b` as unsigned integers, else 0 (SLTU, SLTIU). -/
def setLessU (a b : Word) : Word := boolWord (a.ult b)

/-! ### The fields of `mstatus` (10_state.md R34) -/

/-- Bit 1. -/
def statusSIE (w : Word) : Bool := w.getLsbD 1
/-- Bit 3. -/
def statusMIE (w : Word) : Bool := w.getLsbD 3
/-- Bit 5. -/
def statusSPIE (w : Word) : Bool := w.getLsbD 5
/-- Bit 7. -/
def statusMPIE (w : Word) : Bool := w.getLsbD 7
/-- Bit 8: 0 is U, 1 is S. -/
def statusSPP (w : Word) : Bool := w.getLsbD 8
/-- Bits 12:11. -/
def statusMPP (w : Word) : BitVec 2 := w.extractLsb' 11 2
/-- Bit 18. -/
def statusSUM (w : Word) : Bool := w.getLsbD 18
/-- Bit 19. -/
def statusMXR (w : Word) : Bool := w.getLsbD 19

/-- `w` with SIE set to `b`. -/
def withSIE (w : Word) (b : Bool) : Word := setBit w 1 b
/-- `w` with MIE set to `b`. -/
def withMIE (w : Word) (b : Bool) : Word := setBit w 3 b
/-- `w` with SPIE set to `b`. -/
def withSPIE (w : Word) (b : Bool) : Word := setBit w 5 b
/-- `w` with MPIE set to `b`. -/
def withMPIE (w : Word) (b : Bool) : Word := setBit w 7 b
/-- `w` with SPP set to `b`. -/
def withSPP (w : Word) (b : Bool) : Word := setBit w 8 b
/-- `w` with MPP set to the two bits of `p`. -/
def withMPP (w : Word) (p : Priv) : Word := setBit (setBit w 11 (p.bits.getLsbD 0)) 12 (p.bits.getLsbD 1)

/-- What trap entry to M-mode from mode `p` does to `mstatus` (60_exceptions.md R431). -/
def statusEnterM (w : Word) (p : Priv) : Word :=
  withMPP (withMIE (withMPIE w (statusMIE w)) false) p

/-- What trap entry to S-mode from mode `p` does to `mstatus` (60_exceptions.md R431). -/
def statusEnterS (w : Word) (p : Priv) : Word :=
  withSPP (withSIE (withSPIE w (statusSIE w)) false) (p == .S)

/-- What MRET does to `mstatus` (46_system.md R364). -/
def statusLeaveM (w : Word) : Word :=
  withMPP (withMPIE (withMIE w (statusMPIE w)) true) .U

/-- What SRET does to `mstatus` (46_system.md R365). -/
def statusLeaveS (w : Word) : Word :=
  withSPP (withSPIE (withSIE w (statusSPIE w)) true) false

end Sys2Proof.Machine
end

