-- ==== Sys2Proof/Syntax.lean ====
section
/-! DEFINITION. The instructions of PSD: one constructor per row of spec/opcode_table.json (30_encoding.md
R192), in the table's order. Operands are the fields of the encoding: register numbers (R182), immediates as
the value before sign extension (R183 to R187; a branch or jump offset with its always-zero bit 0), shift
amounts (R188), CSR addresses and 5-bit immediates (R189), the `aq` and `rl` bits (R190) and the FENCE fields
that execution ignores (R191). -/

namespace Sys2Proof

/-- One instruction of the opcode table. -/
inductive Instr where
  /-- LUI (R221). -/
  | lui (rd : Reg) (imm20 : BitVec 20)
  /-- AUIPC (R222). -/
  | auipc (rd : Reg) (imm20 : BitVec 20)
  /-- ADDI (R223). -/
  | addi (rd rs1 : Reg) (imm : BitVec 12)
  /-- SLTI (R224). -/
  | slti (rd rs1 : Reg) (imm : BitVec 12)
  /-- SLTIU (R225). -/
  | sltiu (rd rs1 : Reg) (imm : BitVec 12)
  /-- XORI (R226). -/
  | xori (rd rs1 : Reg) (imm : BitVec 12)
  /-- ORI (R227). -/
  | ori (rd rs1 : Reg) (imm : BitVec 12)
  /-- ANDI (R228). -/
  | andi (rd rs1 : Reg) (imm : BitVec 12)
  /-- SLLI (R229). -/
  | slli (rd rs1 : Reg) (shamt : BitVec 5)
  /-- SRLI (R230). -/
  | srli (rd rs1 : Reg) (shamt : BitVec 5)
  /-- SRAI (R231). -/
  | srai (rd rs1 : Reg) (shamt : BitVec 5)
  /-- ADD (R232). -/
  | add (rd rs1 rs2 : Reg)
  /-- SUB (R233). -/
  | sub (rd rs1 rs2 : Reg)
  /-- SLL (R234). -/
  | sll (rd rs1 rs2 : Reg)
  /-- SLT (R235). -/
  | slt (rd rs1 rs2 : Reg)
  /-- SLTU (R236). -/
  | sltu (rd rs1 rs2 : Reg)
  /-- XOR (R237). -/
  | xor (rd rs1 rs2 : Reg)
  /-- SRL (R238). -/
  | srl (rd rs1 rs2 : Reg)
  /-- SRA (R239). -/
  | sra (rd rs1 rs2 : Reg)
  /-- OR (R240). -/
  | or (rd rs1 rs2 : Reg)
  /-- AND (R241). -/
  | and (rd rs1 rs2 : Reg)
  /-- JAL (R252). -/
  | jal (rd : Reg) (offset : BitVec 21)
  /-- JALR (R253). -/
  | jalr (rd rs1 : Reg) (imm : BitVec 12)
  /-- BEQ (R254). -/
  | beq (rs1 rs2 : Reg) (offset : BitVec 13)
  /-- BNE (R255). -/
  | bne (rs1 rs2 : Reg) (offset : BitVec 13)
  /-- BLT (R256). -/
  | blt (rs1 rs2 : Reg) (offset : BitVec 13)
  /-- BGE (R257). -/
  | bge (rs1 rs2 : Reg) (offset : BitVec 13)
  /-- BLTU (R258). -/
  | bltu (rs1 rs2 : Reg) (offset : BitVec 13)
  /-- BGEU (R259). -/
  | bgeu (rs1 rs2 : Reg) (offset : BitVec 13)
  /-- LB (R271). -/
  | lb (rd rs1 : Reg) (imm : BitVec 12)
  /-- LH (R272). -/
  | lh (rd rs1 : Reg) (imm : BitVec 12)
  /-- LW (R273). -/
  | lw (rd rs1 : Reg) (imm : BitVec 12)
  /-- LBU (R274). -/
  | lbu (rd rs1 : Reg) (imm : BitVec 12)
  /-- LHU (R275). -/
  | lhu (rd rs1 : Reg) (imm : BitVec 12)
  /-- SB (R276). -/
  | sb (rs1 rs2 : Reg) (imm : BitVec 12)
  /-- SH (R277). -/
  | sh (rs1 rs2 : Reg) (imm : BitVec 12)
  /-- SW (R278). -/
  | sw (rs1 rs2 : Reg) (imm : BitVec 12)
  /-- FENCE (R281). -/
  | fence (fm pred succ : BitVec 4) (rs1 rd : Reg)
  /-- MUL (R291). -/
  | mul (rd rs1 rs2 : Reg)
  /-- MULH (R292). -/
  | mulh (rd rs1 rs2 : Reg)
  /-- MULHSU (R293). -/
  | mulhsu (rd rs1 rs2 : Reg)
  /-- MULHU (R294). -/
  | mulhu (rd rs1 rs2 : Reg)
  /-- DIV (R295). -/
  | div (rd rs1 rs2 : Reg)
  /-- DIVU (R296). -/
  | divu (rd rs1 rs2 : Reg)
  /-- REM (R297). -/
  | rem (rd rs1 rs2 : Reg)
  /-- REMU (R298). -/
  | remu (rd rs1 rs2 : Reg)
  /-- LR.W (R312). -/
  | lrW (rd rs1 : Reg) (aq rl : Bool)
  /-- SC.W (R313). -/
  | scW (rd rs1 rs2 : Reg) (aq rl : Bool)
  /-- AMOSWAP.W (R318). -/
  | amoswapW (rd rs1 rs2 : Reg) (aq rl : Bool)
  /-- AMOADD.W (R319). -/
  | amoaddW (rd rs1 rs2 : Reg) (aq rl : Bool)
  /-- AMOXOR.W (R320). -/
  | amoxorW (rd rs1 rs2 : Reg) (aq rl : Bool)
  /-- AMOAND.W (R321). -/
  | amoandW (rd rs1 rs2 : Reg) (aq rl : Bool)
  /-- AMOOR.W (R322). -/
  | amoorW (rd rs1 rs2 : Reg) (aq rl : Bool)
  /-- AMOMIN.W (R323). -/
  | amominW (rd rs1 rs2 : Reg) (aq rl : Bool)
  /-- AMOMAX.W (R324). -/
  | amomaxW (rd rs1 rs2 : Reg) (aq rl : Bool)
  /-- AMOMINU.W (R325). -/
  | amominuW (rd rs1 rs2 : Reg) (aq rl : Bool)
  /-- AMOMAXU.W (R326). -/
  | amomaxuW (rd rs1 rs2 : Reg) (aq rl : Bool)
  /-- CSRRW (R342). -/
  | csrrw (rd : Reg) (csr : CsrAddr) (rs1 : Reg)
  /-- CSRRS (R343). -/
  | csrrs (rd : Reg) (csr : CsrAddr) (rs1 : Reg)
  /-- CSRRC (R344). -/
  | csrrc (rd : Reg) (csr : CsrAddr) (rs1 : Reg)
  /-- CSRRWI (R345). -/
  | csrrwi (rd : Reg) (csr : CsrAddr) (uimm : BitVec 5)
  /-- CSRRSI (R346). -/
  | csrrsi (rd : Reg) (csr : CsrAddr) (uimm : BitVec 5)
  /-- CSRRCI (R347). -/
  | csrrci (rd : Reg) (csr : CsrAddr) (uimm : BitVec 5)
  /-- ECALL (R361). -/
  | ecall
  /-- EBREAK (R362). -/
  | ebreak
  /-- SRET (R365). -/
  | sret
  /-- MRET (R364). -/
  | mret
  /-- WFI (R367). -/
  | wfi
  /-- SFENCE.VMA (R366). -/
  | sfenceVma (rs1 rs2 : Reg)
  deriving DecidableEq, Repr

end Sys2Proof
end

