-- ==== Sys2Proof/Decode.lean ====
section
/-! DEFINITION. Decoding and encoding (30_encoding.md). An instruction is one 32-bit word, stored
little-endian (R180, 20_memory.md R102). A word is the instruction of the unique row of the opcode table with
`word & mask = match` (R193); a word of no row is rejected by name (R194). -/

namespace Sys2Proof

/-! ### Fields of the word (R181, R182) and immediates (R183 to R187) -/

/-- `inst[11:7]`. -/
def rdOf (w : Word) : Reg := w.extractLsb' 7 5
/-- `inst[19:15]`. -/
def rs1Of (w : Word) : Reg := w.extractLsb' 15 5
/-- `inst[24:20]`, also the shift amount (R188). -/
def rs2Of (w : Word) : Reg := w.extractLsb' 20 5
/-- `inst[31:20]`, the I-type immediate (R183) or the CSR address (R189). -/
def immIOf (w : Word) : BitVec 12 := w.extractLsb' 20 12
/-- Bits `inst[31:25]` then `inst[11:7]` (R184). -/
def immSOf (w : Word) : BitVec 12 := w.extractLsb' 25 7 ++ w.extractLsb' 7 5
/-- Bits `inst[31]`, `inst[7]`, `inst[30:25]`, `inst[11:8]`, then 0 (R185). -/
def offsetBOf (w : Word) : BitVec 13 :=
  w.extractLsb' 31 1 ++ w.extractLsb' 7 1 ++ w.extractLsb' 25 6 ++ w.extractLsb' 8 4 ++ 0#1
/-- `inst[31:12]` (R186). -/
def immUOf (w : Word) : BitVec 20 := w.extractLsb' 12 20
/-- Bits `inst[31]`, `inst[19:12]`, `inst[20]`, `inst[30:21]`, then 0 (R187). -/
def offsetJOf (w : Word) : BitVec 21 :=
  w.extractLsb' 31 1 ++ w.extractLsb' 12 8 ++ w.extractLsb' 20 1 ++ w.extractLsb' 21 10 ++ 0#1
/-- `inst[26]` (R190). -/
def aqOf (w : Word) : Bool := w.getLsbD 26
/-- `inst[25]` (R190). -/
def rlOf (w : Word) : Bool := w.getLsbD 25
/-- `inst[31:28]` (R191). -/
def fmOf (w : Word) : BitVec 4 := w.extractLsb' 28 4
/-- `inst[27:24]` (R191). -/
def predOf (w : Word) : BitVec 4 := w.extractLsb' 24 4
/-- `inst[23:20]` (R191). -/
def succOf (w : Word) : BitVec 4 := w.extractLsb' 20 4

/-! ### The opcode table (R192) -/

/-- One row: the word belongs to it when `word & mask = pat`, and then stands for `build word`. -/
structure OpcodeRow where
  pat : Word
  mask : Word
  build : Word → Instr

/-- The word belongs to the row (R193). -/
def OpcodeRow.accepts (r : OpcodeRow) (w : Word) : Bool := w &&& r.mask == r.pat

/-- The rows LUI to AND (40_rv32i_compute.md). -/
def rowsCompute : List OpcodeRow := [
  ⟨0x00000037#32, 0x0000007f#32, fun w => .lui (rdOf w) (immUOf w)⟩,
  ⟨0x00000017#32, 0x0000007f#32, fun w => .auipc (rdOf w) (immUOf w)⟩,
  ⟨0x00000013#32, 0x0000707f#32, fun w => .addi (rdOf w) (rs1Of w) (immIOf w)⟩,
  ⟨0x00002013#32, 0x0000707f#32, fun w => .slti (rdOf w) (rs1Of w) (immIOf w)⟩,
  ⟨0x00003013#32, 0x0000707f#32, fun w => .sltiu (rdOf w) (rs1Of w) (immIOf w)⟩,
  ⟨0x00004013#32, 0x0000707f#32, fun w => .xori (rdOf w) (rs1Of w) (immIOf w)⟩,
  ⟨0x00006013#32, 0x0000707f#32, fun w => .ori (rdOf w) (rs1Of w) (immIOf w)⟩,
  ⟨0x00007013#32, 0x0000707f#32, fun w => .andi (rdOf w) (rs1Of w) (immIOf w)⟩,
  ⟨0x00001013#32, 0xfe00707f#32, fun w => .slli (rdOf w) (rs1Of w) (rs2Of w)⟩,
  ⟨0x00005013#32, 0xfe00707f#32, fun w => .srli (rdOf w) (rs1Of w) (rs2Of w)⟩,
  ⟨0x40005013#32, 0xfe00707f#32, fun w => .srai (rdOf w) (rs1Of w) (rs2Of w)⟩,
  ⟨0x00000033#32, 0xfe00707f#32, fun w => .add (rdOf w) (rs1Of w) (rs2Of w)⟩,
  ⟨0x40000033#32, 0xfe00707f#32, fun w => .sub (rdOf w) (rs1Of w) (rs2Of w)⟩,
  ⟨0x00001033#32, 0xfe00707f#32, fun w => .sll (rdOf w) (rs1Of w) (rs2Of w)⟩,
  ⟨0x00002033#32, 0xfe00707f#32, fun w => .slt (rdOf w) (rs1Of w) (rs2Of w)⟩,
  ⟨0x00003033#32, 0xfe00707f#32, fun w => .sltu (rdOf w) (rs1Of w) (rs2Of w)⟩,
  ⟨0x00004033#32, 0xfe00707f#32, fun w => .xor (rdOf w) (rs1Of w) (rs2Of w)⟩,
  ⟨0x00005033#32, 0xfe00707f#32, fun w => .srl (rdOf w) (rs1Of w) (rs2Of w)⟩,
  ⟨0x40005033#32, 0xfe00707f#32, fun w => .sra (rdOf w) (rs1Of w) (rs2Of w)⟩,
  ⟨0x00006033#32, 0xfe00707f#32, fun w => .or (rdOf w) (rs1Of w) (rs2Of w)⟩,
  ⟨0x00007033#32, 0xfe00707f#32, fun w => .and (rdOf w) (rs1Of w) (rs2Of w)⟩]

/-- The rows JAL to BGEU (41_rv32i_control.md). -/
def rowsControl : List OpcodeRow := [
  ⟨0x0000006f#32, 0x0000007f#32, fun w => .jal (rdOf w) (offsetJOf w)⟩,
  ⟨0x00000067#32, 0x0000707f#32, fun w => .jalr (rdOf w) (rs1Of w) (immIOf w)⟩,
  ⟨0x00000063#32, 0x0000707f#32, fun w => .beq (rs1Of w) (rs2Of w) (offsetBOf w)⟩,
  ⟨0x00001063#32, 0x0000707f#32, fun w => .bne (rs1Of w) (rs2Of w) (offsetBOf w)⟩,
  ⟨0x00004063#32, 0x0000707f#32, fun w => .blt (rs1Of w) (rs2Of w) (offsetBOf w)⟩,
  ⟨0x00005063#32, 0x0000707f#32, fun w => .bge (rs1Of w) (rs2Of w) (offsetBOf w)⟩,
  ⟨0x00006063#32, 0x0000707f#32, fun w => .bltu (rs1Of w) (rs2Of w) (offsetBOf w)⟩,
  ⟨0x00007063#32, 0x0000707f#32, fun w => .bgeu (rs1Of w) (rs2Of w) (offsetBOf w)⟩]

/-- The rows LB to FENCE (42_rv32i_loadstore.md). -/
def rowsLoadStore : List OpcodeRow := [
  ⟨0x00000003#32, 0x0000707f#32, fun w => .lb (rdOf w) (rs1Of w) (immIOf w)⟩,
  ⟨0x00001003#32, 0x0000707f#32, fun w => .lh (rdOf w) (rs1Of w) (immIOf w)⟩,
  ⟨0x00002003#32, 0x0000707f#32, fun w => .lw (rdOf w) (rs1Of w) (immIOf w)⟩,
  ⟨0x00004003#32, 0x0000707f#32, fun w => .lbu (rdOf w) (rs1Of w) (immIOf w)⟩,
  ⟨0x00005003#32, 0x0000707f#32, fun w => .lhu (rdOf w) (rs1Of w) (immIOf w)⟩,
  ⟨0x00000023#32, 0x0000707f#32, fun w => .sb (rs1Of w) (rs2Of w) (immSOf w)⟩,
  ⟨0x00001023#32, 0x0000707f#32, fun w => .sh (rs1Of w) (rs2Of w) (immSOf w)⟩,
  ⟨0x00002023#32, 0x0000707f#32, fun w => .sw (rs1Of w) (rs2Of w) (immSOf w)⟩,
  ⟨0x0000000f#32, 0x0000707f#32, fun w => .fence (fmOf w) (predOf w) (succOf w) (rs1Of w) (rdOf w)⟩]

/-- The rows MUL to REMU (43_m_extension.md). -/
def rowsMulDiv : List OpcodeRow := [
  ⟨0x02000033#32, 0xfe00707f#32, fun w => .mul (rdOf w) (rs1Of w) (rs2Of w)⟩,
  ⟨0x02001033#32, 0xfe00707f#32, fun w => .mulh (rdOf w) (rs1Of w) (rs2Of w)⟩,
  ⟨0x02002033#32, 0xfe00707f#32, fun w => .mulhsu (rdOf w) (rs1Of w) (rs2Of w)⟩,
  ⟨0x02003033#32, 0xfe00707f#32, fun w => .mulhu (rdOf w) (rs1Of w) (rs2Of w)⟩,
  ⟨0x02004033#32, 0xfe00707f#32, fun w => .div (rdOf w) (rs1Of w) (rs2Of w)⟩,
  ⟨0x02005033#32, 0xfe00707f#32, fun w => .divu (rdOf w) (rs1Of w) (rs2Of w)⟩,
  ⟨0x02006033#32, 0xfe00707f#32, fun w => .rem (rdOf w) (rs1Of w) (rs2Of w)⟩,
  ⟨0x02007033#32, 0xfe00707f#32, fun w => .remu (rdOf w) (rs1Of w) (rs2Of w)⟩]

/-- The rows LR.W to AMOMAXU.W (44_a_extension.md). -/
def rowsAtomic : List OpcodeRow := [
  ⟨0x1000202f#32, 0xf9f0707f#32, fun w => .lrW (rdOf w) (rs1Of w) (aqOf w) (rlOf w)⟩,
  ⟨0x1800202f#32, 0xf800707f#32, fun w => .scW (rdOf w) (rs1Of w) (rs2Of w) (aqOf w) (rlOf w)⟩,
  ⟨0x0800202f#32, 0xf800707f#32, fun w => .amoswapW (rdOf w) (rs1Of w) (rs2Of w) (aqOf w) (rlOf w)⟩,
  ⟨0x0000202f#32, 0xf800707f#32, fun w => .amoaddW (rdOf w) (rs1Of w) (rs2Of w) (aqOf w) (rlOf w)⟩,
  ⟨0x2000202f#32, 0xf800707f#32, fun w => .amoxorW (rdOf w) (rs1Of w) (rs2Of w) (aqOf w) (rlOf w)⟩,
  ⟨0x6000202f#32, 0xf800707f#32, fun w => .amoandW (rdOf w) (rs1Of w) (rs2Of w) (aqOf w) (rlOf w)⟩,
  ⟨0x4000202f#32, 0xf800707f#32, fun w => .amoorW (rdOf w) (rs1Of w) (rs2Of w) (aqOf w) (rlOf w)⟩,
  ⟨0x8000202f#32, 0xf800707f#32, fun w => .amominW (rdOf w) (rs1Of w) (rs2Of w) (aqOf w) (rlOf w)⟩,
  ⟨0xa000202f#32, 0xf800707f#32, fun w => .amomaxW (rdOf w) (rs1Of w) (rs2Of w) (aqOf w) (rlOf w)⟩,
  ⟨0xc000202f#32, 0xf800707f#32, fun w => .amominuW (rdOf w) (rs1Of w) (rs2Of w) (aqOf w) (rlOf w)⟩,
  ⟨0xe000202f#32, 0xf800707f#32, fun w => .amomaxuW (rdOf w) (rs1Of w) (rs2Of w) (aqOf w) (rlOf w)⟩]

/-- The rows CSRRW to CSRRCI (45_zicsr.md). -/
def rowsCsr : List OpcodeRow := [
  ⟨0x00001073#32, 0x0000707f#32, fun w => .csrrw (rdOf w) (immIOf w) (rs1Of w)⟩,
  ⟨0x00002073#32, 0x0000707f#32, fun w => .csrrs (rdOf w) (immIOf w) (rs1Of w)⟩,
  ⟨0x00003073#32, 0x0000707f#32, fun w => .csrrc (rdOf w) (immIOf w) (rs1Of w)⟩,
  ⟨0x00005073#32, 0x0000707f#32, fun w => .csrrwi (rdOf w) (immIOf w) (rs1Of w)⟩,
  ⟨0x00006073#32, 0x0000707f#32, fun w => .csrrsi (rdOf w) (immIOf w) (rs1Of w)⟩,
  ⟨0x00007073#32, 0x0000707f#32, fun w => .csrrci (rdOf w) (immIOf w) (rs1Of w)⟩]

/-- The rows ECALL to SFENCE.VMA (46_system.md). -/
def rowsSystem : List OpcodeRow := [
  ⟨0x00000073#32, 0xffffffff#32, fun _ => .ecall⟩,
  ⟨0x00100073#32, 0xffffffff#32, fun _ => .ebreak⟩,
  ⟨0x10200073#32, 0xffffffff#32, fun _ => .sret⟩,
  ⟨0x30200073#32, 0xffffffff#32, fun _ => .mret⟩,
  ⟨0x10500073#32, 0xffffffff#32, fun _ => .wfi⟩,
  ⟨0x12000073#32, 0xfe007fff#32, fun w => .sfenceVma (rs1Of w) (rs2Of w)⟩]

/-- The whole table, in the order of spec/opcode_table.json. -/
def opcodeTable : List OpcodeRow :=
  rowsCompute ++ rowsControl ++ rowsLoadStore ++ rowsMulDiv ++ rowsAtomic ++ rowsCsr ++ rowsSystem

/-- The instruction a word stands for; none for a word of no row, which is illegal (R193, R194). -/
def decodeWord (w : Word) : Option Instr :=
  (opcodeTable.find? (·.accepts w)).map (·.build w)

/-! ### Decoding bytes -/

/-- Why bytes are no instruction. -/
inductive DecodeError where
  /-- Fewer than four bytes are left: an instruction has exactly four (R180). -/
  | truncated
  /-- The word matches no row (R194). -/
  | noSuchInstruction (word : Word)
  deriving DecidableEq, Repr

/-- Four bytes as a word, the first byte the least significant (20_memory.md R100, R102). -/
def wordOfBytes (b0 b1 b2 b3 : Byte) : Word := b3 ++ b2 ++ b1 ++ b0

/-- The four bytes of a word in memory order (20_memory.md R100). -/
def bytesOfWord (w : Word) : List Byte :=
  [w.extractLsb' 0 8, w.extractLsb' 8 8, w.extractLsb' 16 8, w.extractLsb' 24 8]

/-- Decode the first instruction of a list of bytes and return the bytes after it. -/
def decodeBytes : List Byte → Except DecodeError (Instr × List Byte)
  | b0 :: b1 :: b2 :: b3 :: rest =>
    match decodeWord (wordOfBytes b0 b1 b2 b3) with
    | some i => .ok (i, rest)
    | none => .error (.noSuchInstruction (wordOfBytes b0 b1 b2 b3))
  | _ => .error .truncated

/-- What the decoder reads from an instruction whose bits, numbered as spec/opcode_table.json numbers them,
are the low `nbits` bits of `w`. -/
def decodeTableWord (nbits w : Nat) : Option Instr :=
  match decodeBytes (bytesOfWord (BitVec.ofNat 32 (w % 2 ^ nbits))) with
  | .ok (i, _) => some i
  | .error _ => none

/-! ### Encoding (R181 to R192) -/

/-- R format (R181), also the shift-immediate form with the amount in the place of `rs2` (R188). -/
def encodeR (funct7 : BitVec 7) (rs2 rs1 : Reg) (funct3 : BitVec 3) (rd : Reg) (opcode : BitVec 7) : Word :=
  funct7 ++ rs2 ++ rs1 ++ funct3 ++ rd ++ opcode

/-- I format (R183), also the CSR form (R189) and the FENCE form (R191). -/
def encodeI (imm : BitVec 12) (rs1 : Reg) (funct3 : BitVec 3) (rd : Reg) (opcode : BitVec 7) : Word :=
  imm ++ rs1 ++ funct3 ++ rd ++ opcode

/-- S format (R184). -/
def encodeS (imm : BitVec 12) (rs2 rs1 : Reg) (funct3 : BitVec 3) (opcode : BitVec 7) : Word :=
  imm.extractLsb' 5 7 ++ rs2 ++ rs1 ++ funct3 ++ imm.extractLsb' 0 5 ++ opcode

/-- B format (R185); bit 0 of the offset has no place in the word. -/
def encodeB (offset : BitVec 13) (rs2 rs1 : Reg) (funct3 : BitVec 3) (opcode : BitVec 7) : Word :=
  offset.extractLsb' 12 1 ++ offset.extractLsb' 5 6 ++ rs2 ++ rs1 ++ funct3 ++
    offset.extractLsb' 1 4 ++ offset.extractLsb' 11 1 ++ opcode

/-- U format (R186). -/
def encodeU (imm20 : BitVec 20) (rd : Reg) (opcode : BitVec 7) : Word :=
  imm20 ++ rd ++ opcode

/-- J format (R187); bit 0 of the offset has no place in the word. -/
def encodeJ (offset : BitVec 21) (rd : Reg) (opcode : BitVec 7) : Word :=
  offset.extractLsb' 20 1 ++ offset.extractLsb' 1 10 ++ offset.extractLsb' 11 1 ++
    offset.extractLsb' 12 8 ++ rd ++ opcode

/-- Atomic form (R190). -/
def encodeAmo (funct5 : BitVec 5) (aq rl : Bool) (rs2 rs1 : Reg) (funct3 : BitVec 3) (rd : Reg)
    (opcode : BitVec 7) : Word :=
  funct5 ++ BitVec.ofBool aq ++ BitVec.ofBool rl ++ rs2 ++ rs1 ++ funct3 ++ rd ++ opcode

/-- The word of an instruction (R192). -/
def encode : Instr → Word
  | .lui rd imm20 => encodeU imm20 rd 0b0110111#7
  | .auipc rd imm20 => encodeU imm20 rd 0b0010111#7
  | .addi rd rs1 imm => encodeI imm rs1 0b000#3 rd 0b0010011#7
  | .slti rd rs1 imm => encodeI imm rs1 0b010#3 rd 0b0010011#7
  | .sltiu rd rs1 imm => encodeI imm rs1 0b011#3 rd 0b0010011#7
  | .xori rd rs1 imm => encodeI imm rs1 0b100#3 rd 0b0010011#7
  | .ori rd rs1 imm => encodeI imm rs1 0b110#3 rd 0b0010011#7
  | .andi rd rs1 imm => encodeI imm rs1 0b111#3 rd 0b0010011#7
  | .slli rd rs1 shamt => encodeR 0b0000000#7 shamt rs1 0b001#3 rd 0b0010011#7
  | .srli rd rs1 shamt => encodeR 0b0000000#7 shamt rs1 0b101#3 rd 0b0010011#7
  | .srai rd rs1 shamt => encodeR 0b0100000#7 shamt rs1 0b101#3 rd 0b0010011#7
  | .add rd rs1 rs2 => encodeR 0b0000000#7 rs2 rs1 0b000#3 rd 0b0110011#7
  | .sub rd rs1 rs2 => encodeR 0b0100000#7 rs2 rs1 0b000#3 rd 0b0110011#7
  | .sll rd rs1 rs2 => encodeR 0b0000000#7 rs2 rs1 0b001#3 rd 0b0110011#7
  | .slt rd rs1 rs2 => encodeR 0b0000000#7 rs2 rs1 0b010#3 rd 0b0110011#7
  | .sltu rd rs1 rs2 => encodeR 0b0000000#7 rs2 rs1 0b011#3 rd 0b0110011#7
  | .xor rd rs1 rs2 => encodeR 0b0000000#7 rs2 rs1 0b100#3 rd 0b0110011#7
  | .srl rd rs1 rs2 => encodeR 0b0000000#7 rs2 rs1 0b101#3 rd 0b0110011#7
  | .sra rd rs1 rs2 => encodeR 0b0100000#7 rs2 rs1 0b101#3 rd 0b0110011#7
  | .or rd rs1 rs2 => encodeR 0b0000000#7 rs2 rs1 0b110#3 rd 0b0110011#7
  | .and rd rs1 rs2 => encodeR 0b0000000#7 rs2 rs1 0b111#3 rd 0b0110011#7
  | .jal rd offset => encodeJ offset rd 0b1101111#7
  | .jalr rd rs1 imm => encodeI imm rs1 0b000#3 rd 0b1100111#7
  | .beq rs1 rs2 offset => encodeB offset rs2 rs1 0b000#3 0b1100011#7
  | .bne rs1 rs2 offset => encodeB offset rs2 rs1 0b001#3 0b1100011#7
  | .blt rs1 rs2 offset => encodeB offset rs2 rs1 0b100#3 0b1100011#7
  | .bge rs1 rs2 offset => encodeB offset rs2 rs1 0b101#3 0b1100011#7
  | .bltu rs1 rs2 offset => encodeB offset rs2 rs1 0b110#3 0b1100011#7
  | .bgeu rs1 rs2 offset => encodeB offset rs2 rs1 0b111#3 0b1100011#7
  | .lb rd rs1 imm => encodeI imm rs1 0b000#3 rd 0b0000011#7
  | .lh rd rs1 imm => encodeI imm rs1 0b001#3 rd 0b0000011#7
  | .lw rd rs1 imm => encodeI imm rs1 0b010#3 rd 0b0000011#7
  | .lbu rd rs1 imm => encodeI imm rs1 0b100#3 rd 0b0000011#7
  | .lhu rd rs1 imm => encodeI imm rs1 0b101#3 rd 0b0000011#7
  | .sb rs1 rs2 imm => encodeS imm rs2 rs1 0b000#3 0b0100011#7
  | .sh rs1 rs2 imm => encodeS imm rs2 rs1 0b001#3 0b0100011#7
  | .sw rs1 rs2 imm => encodeS imm rs2 rs1 0b010#3 0b0100011#7
  | .fence fm pred succ rs1 rd => encodeI (fm ++ pred ++ succ) rs1 0b000#3 rd 0b0001111#7
  | .mul rd rs1 rs2 => encodeR 0b0000001#7 rs2 rs1 0b000#3 rd 0b0110011#7
  | .mulh rd rs1 rs2 => encodeR 0b0000001#7 rs2 rs1 0b001#3 rd 0b0110011#7
  | .mulhsu rd rs1 rs2 => encodeR 0b0000001#7 rs2 rs1 0b010#3 rd 0b0110011#7
  | .mulhu rd rs1 rs2 => encodeR 0b0000001#7 rs2 rs1 0b011#3 rd 0b0110011#7
  | .div rd rs1 rs2 => encodeR 0b0000001#7 rs2 rs1 0b100#3 rd 0b0110011#7
  | .divu rd rs1 rs2 => encodeR 0b0000001#7 rs2 rs1 0b101#3 rd 0b0110011#7
  | .rem rd rs1 rs2 => encodeR 0b0000001#7 rs2 rs1 0b110#3 rd 0b0110011#7
  | .remu rd rs1 rs2 => encodeR 0b0000001#7 rs2 rs1 0b111#3 rd 0b0110011#7
  | .lrW rd rs1 aq rl => encodeAmo 0b00010#5 aq rl 0b00000#5 rs1 0b010#3 rd 0b0101111#7
  | .scW rd rs1 rs2 aq rl => encodeAmo 0b00011#5 aq rl rs2 rs1 0b010#3 rd 0b0101111#7
  | .amoswapW rd rs1 rs2 aq rl => encodeAmo 0b00001#5 aq rl rs2 rs1 0b010#3 rd 0b0101111#7
  | .amoaddW rd rs1 rs2 aq rl => encodeAmo 0b00000#5 aq rl rs2 rs1 0b010#3 rd 0b0101111#7
  | .amoxorW rd rs1 rs2 aq rl => encodeAmo 0b00100#5 aq rl rs2 rs1 0b010#3 rd 0b0101111#7
  | .amoandW rd rs1 rs2 aq rl => encodeAmo 0b01100#5 aq rl rs2 rs1 0b010#3 rd 0b0101111#7
  | .amoorW rd rs1 rs2 aq rl => encodeAmo 0b01000#5 aq rl rs2 rs1 0b010#3 rd 0b0101111#7
  | .amominW rd rs1 rs2 aq rl => encodeAmo 0b10000#5 aq rl rs2 rs1 0b010#3 rd 0b0101111#7
  | .amomaxW rd rs1 rs2 aq rl => encodeAmo 0b10100#5 aq rl rs2 rs1 0b010#3 rd 0b0101111#7
  | .amominuW rd rs1 rs2 aq rl => encodeAmo 0b11000#5 aq rl rs2 rs1 0b010#3 rd 0b0101111#7
  | .amomaxuW rd rs1 rs2 aq rl => encodeAmo 0b11100#5 aq rl rs2 rs1 0b010#3 rd 0b0101111#7
  | .csrrw rd csr rs1 => encodeI csr rs1 0b001#3 rd 0b1110011#7
  | .csrrs rd csr rs1 => encodeI csr rs1 0b010#3 rd 0b1110011#7
  | .csrrc rd csr rs1 => encodeI csr rs1 0b011#3 rd 0b1110011#7
  | .csrrwi rd csr uimm => encodeI csr uimm 0b101#3 rd 0b1110011#7
  | .csrrsi rd csr uimm => encodeI csr uimm 0b110#3 rd 0b1110011#7
  | .csrrci rd csr uimm => encodeI csr uimm 0b111#3 rd 0b1110011#7
  | .ecall => encodeR 0b0000000#7 0b00000#5 0b00000#5 0b000#3 0b00000#5 0b1110011#7
  | .ebreak => encodeR 0b0000000#7 0b00001#5 0b00000#5 0b000#3 0b00000#5 0b1110011#7
  | .sret => encodeR 0b0001000#7 0b00010#5 0b00000#5 0b000#3 0b00000#5 0b1110011#7
  | .mret => encodeR 0b0011000#7 0b00010#5 0b00000#5 0b000#3 0b00000#5 0b1110011#7
  | .wfi => encodeR 0b0001000#7 0b00101#5 0b00000#5 0b000#3 0b00000#5 0b1110011#7
  | .sfenceVma rs1 rs2 => encodeR 0b0001001#7 rs2 rs1 0b000#3 0b00000#5 0b1110011#7

end Sys2Proof
end

