-- ==== Sys2Proof/Machine/Memory.lean ====
section
/-! DEFINITION. Physical memory as a map from addresses to bytes (20_memory.md R103), little-endian (R100). -/

namespace Sys2Proof.Machine

/-- What an address with no entry reads as. The spec leaves RAM contents to the platform
(70_reset_and_hazards.md R483). DESIGN CHOICE, unsafe (log 12). -/
def unlistedByte : Byte := 0#8

/-- The canonical form: addresses strictly rising, no entry equal to what an unlisted address reads as. -/
abbrev Memory.wf (m : Memory) : Prop :=
  m.Pairwise (fun c d => c.1 < d.1) ∧ ∀ c ∈ m, c.2 ≠ unlistedByte

/-- The byte at an address. -/
def Memory.read : Memory → Nat → Byte
  | [], _ => unlistedByte
  | (b, v) :: m, a => if a = b then v else Memory.read m a

/-- Store one byte, keeping the canonical form. -/
def Memory.write : Memory → Nat → Byte → Memory
  | [], a, v => if v = unlistedByte then [] else [(a, v)]
  | (b, w) :: m, a, v =>
    if a < b then
      if v = unlistedByte then (b, w) :: m else (a, v) :: (b, w) :: m
    else if a = b then
      if v = unlistedByte then m else (a, v) :: m
    else (b, w) :: Memory.write m a v

/-- Store bytes at consecutive addresses from `a` up. -/
def Memory.writeBytes : Memory → Nat → List Byte → Memory
  | m, _, [] => m
  | m, a, v :: vs => Memory.writeBytes (Memory.write m a v) (a + 1) vs

/-- The little-endian value of the bytes at `a`, zero-extended (R100). -/
def Memory.load (m : Memory) (a : Nat) : Width → Word
  | .byte => (m.read a).setWidth 32
  | .half => (m.read (a + 1) ++ m.read a).setWidth 32
  | .word => wordOfBytes (m.read a) (m.read (a + 1)) (m.read (a + 2)) (m.read (a + 3))

/-- The low bytes of `v` in memory order, as many as the width moves (R100). -/
def storedBytes (w : Width) (v : Word) : List Byte := (bytesOfWord v).take w.bytes

/-- Store the low bytes of `v` at `a`, the least significant at the lowest address (R100). -/
def Memory.store (m : Memory) (a : Nat) (w : Width) (v : Word) : Memory :=
  m.writeBytes a (storedBytes w v)

end Sys2Proof.Machine
end

