-- ==== Sys2Proof/Machine/Physical.lean ====
section
/-! DEFINITION. The physical address map, `PhysAccessOK`, `PhysRead` and `PhysWrite` (20_memory.md R104 to R107)
and the CLINT registers (60_exceptions.md R459 to R462). -/

namespace Sys2Proof.Machine

/-! ### The address map -/

/-- All `n` bytes from `a` up lie in RAM (R105). -/
def inRam (c : Config) (a n : Nat) : Bool := decide (ramBase ≤ a) && decide (a + n ≤ ramBase + c.ramSize)

/-- The CLINT register that an access of `n` bytes at `a` names: words only (60_exceptions.md R459, R462). -/
def clintRegAt (c : Config) (a n : Nat) : Option ClintReg :=
  let base := c.clintBase.toNat
  if n ≠ 4 then none
  else if a = base then some .msip
  else if a = base + 0x4000 then some .mtimecmpLow
  else if a = base + 0x4004 then some .mtimecmpHigh
  else if a = base + 0xBFF8 then some .mtimeLow
  else if a = base + 0xBFFC then some .mtimeHigh
  else none

/-- All `n` bytes from `a` up lie in the region. -/
def regionHolds (r : Region) (a n : Nat) : Bool := decide (r.base ≤ a) && decide (a + n ≤ r.base + r.size)

/-- The region permits accesses of the kind. -/
def regionPermits (r : Region) : AccessKind → Bool
  | .fetch => r.allowFetch
  | .load => r.allowLoad
  | .store => r.allowStore

/-- What a region answers with. -/
def regionTarget : RegionKind → Target
  | .memory => .memory
  | .device => .device

/-- What answers an access of `n` bytes of kind `k` at `pa`; none when `PhysAccessOK` is false (R106, R107):
nothing answers above 32 bits, RAM answers everything, a CLINT register answers a load or store of its word,
and elsewhere the first region of the platform that holds the access decides (log 21). -/
def physTarget (c : Config) (pa : PAddr) (n : Nat) (k : AccessKind) : Option Target :=
  let a := pa.toNat
  if 2 ^ 32 ≤ a then none
  else if inRam c a n then some .memory
  else match clintRegAt c a n with
    | some r => if k = .fetch then none else some (.clint r)
    | none =>
      match c.regions.find? (regionHolds · a n) with
      | some r => if regionPermits r k then some (regionTarget r.kind) else none
      | none => none

/-- `PhysAccessOK(pa, n, kind)` (R107). -/
def physAccessOk (c : Config) (pa : PAddr) (n : Nat) (k : AccessKind) : Bool := (physTarget c pa n k).isSome

/-! ### The CLINT -/

/-- The value of a CLINT register (R459). -/
def State.clintRead (s : State) : ClintReg → Word
  | .msip => boolWord s.msip
  | .mtimecmpLow => s.mtimecmp.extractLsb' 0 32
  | .mtimecmpHigh => s.mtimecmp.extractLsb' 32 32
  | .mtimeLow => s.mtime.extractLsb' 0 32
  | .mtimeHigh => s.mtime.extractLsb' 32 32

/-- A store to a CLINT register (R459 to R461). -/
def State.clintWrite (s : State) (r : ClintReg) (v : Word) : State :=
  match r with
  | .msip => { s with msip := v.getLsbD 0 }
  | .mtimecmpLow => { s with mtimecmp := s.mtimecmp.extractLsb' 32 32 ++ v }
  | .mtimecmpHigh => { s with mtimecmp := v ++ s.mtimecmp.extractLsb' 0 32 }
  | .mtimeLow => { s with mtime := s.mtime.extractLsb' 32 32 ++ v }
  | .mtimeHigh => { s with mtime := v ++ s.mtime.extractLsb' 0 32 }

/-! ### The reservation and stores (44_a_extension.md R316) -/

/-- `n` bytes from `a` up overlap the four bytes of the reserved word. -/
def overlapsReserved (r : Reservation) (a n : Nat) : Bool :=
  decide (a < r.addr.toNat + 4) && decide (r.addr.toNat < a + n)

/-- The reservation after the hart itself wrote `n` bytes at `a`: cleared by an overlapping write when
`OWN_STORE_CLEARS_RESERVATION` (R316). -/
def reservationAfterOwnWrite (c : Config) (r : Reservation) (a n : Nat) : Reservation :=
  if overlapsReserved r a n && c.ownStoreClearsReservation then { r with valid := false } else r

/-! ### `PhysRead` and `PhysWrite` (R104) -/

/-- `PhysRead`, zero-extended; none from a device whose behaviour the spec does not give. -/
def physRead (s : State) (t : Target) (pa : PAddr) (w : Width) : Option Word :=
  match t with
  | .memory => some (s.mem.load pa.toNat w)
  | .clint r => some (s.clintRead r)
  | .device => none

/-- `PhysWrite`, with what an own write does to the reservation; none to a device whose behaviour the spec does
not give. -/
def physWrite (s : State) (t : Target) (pa : PAddr) (w : Width) (v : Word) : Option State :=
  let s' := { s with reservation := reservationAfterOwnWrite s.config s.reservation pa.toNat w.bytes }
  match t with
  | .memory => some { s' with mem := s'.mem.store pa.toNat w v }
  | .clint r => some (s'.clintWrite r v)
  | .device => none

end Sys2Proof.Machine
end

