-- ==== Sys2Proof/Machine/Translate.lean ====
section
/-! DEFINITION. Address translation: Sv32 and the TLBs (20_memory.md R130 to R141, 10_state.md R65). -/

namespace Sys2Proof.Machine

/-! ### When translation applies (R131) -/

/-- `satp` selects Sv32, by the layout in force (10_state.md R55). -/
def sv32Selected (c : Config) (satp : Word) : Bool :=
  match c.satpLayout with
  | .riscv => satp.getLsbD 31
  | .psdText => satp.extractLsb' 30 2 == 0b01#2

/-- Accesses of the current mode are translated (R131). -/
def State.translates (s : State) : Bool := s.priv != .M && sv32Selected s.config s.satp

/-! ### The exceptions of an access kind (R130) -/

/-- The page fault of an access kind. -/
def pageFaultOf : AccessKind → Exc
  | .fetch => .instructionPageFault
  | .load => .loadPageFault
  | .store => .storeAmoPageFault

/-- The access fault of an access kind. -/
def accessFaultOf : AccessKind → Exc
  | .fetch => .instructionAccessFault
  | .load => .loadAccessFault
  | .store => .storeAmoAccessFault

/-! ### Page-table entries (R133) -/

/-- Bit 0. -/
def pteV (pte : Word) : Bool := pte.getLsbD 0
/-- Bit 1. -/
def pteR (pte : Word) : Bool := pte.getLsbD 1
/-- Bit 2. -/
def pteW (pte : Word) : Bool := pte.getLsbD 2
/-- Bit 3. -/
def pteX (pte : Word) : Bool := pte.getLsbD 3
/-- Bit 4. -/
def pteU (pte : Word) : Bool := pte.getLsbD 4
/-- Bit 6. -/
def pteA (pte : Word) : Bool := pte.getLsbD 6
/-- Bit 7. -/
def pteD (pte : Word) : Bool := pte.getLsbD 7

/-- The 34-bit address of the table or page that a 22-bit physical page number names. -/
def pageBase (ppn : BitVec 22) : PAddr := ppn ++ 0#12

/-- An entry no access can use: invalid, or writable without being readable (R135 (a), (b)). -/
def pteInvalid (pte : Word) : Bool := !pteV pte || (pteW pte && !pteR pte)

/-- An entry that ends the walk (R133, R134). -/
def pteLeaf (pte : Word) : Bool := pteR pte || pteX pte

/-- The permission an access kind needs of a leaf (R135 (d)). -/
def pteGrants (mstatus pte : Word) : AccessKind → Bool
  | .fetch => pteX pte
  | .load => pteR pte || (pteX pte && statusMXR mstatus)
  | .store => pteW pte

/-- The mode may use a page with this U bit (R135 (e) to (g)). M-mode accesses are never translated. -/
def pteModeOk (p : Priv) (mstatus pte : Word) (k : AccessKind) : Bool :=
  match p with
  | .U => pteU pte
  | .S => !pteU pte || (k != .fetch && statusSUM mstatus)
  | .M => true

/-- A megapage leaf whose low page number is not zero (R135 (c)). -/
def misalignedMegapage (pte : Word) (l : Level) : Bool :=
  l == .megapage && pte.extractLsb' 10 10 != 0#10

/-- All checks of a leaf (R135). -/
def leafAllows (p : Priv) (mstatus : Word) (k : AccessKind) (pte : Word) (l : Level) : Bool :=
  !pteInvalid pte && pteLeaf pte && !misalignedMegapage pte l && pteGrants mstatus pte k &&
    pteModeOk p mstatus pte k

/-- The access must set A, or D as well for a store (R136). -/
def needsUpdate (pte : Word) (k : AccessKind) : Bool := !pteA pte || (k == .store && !pteD pte)

/-- The entry with A set, and D as well for a store (R136). -/
def updatedPte (pte : Word) (k : AccessKind) : Word :=
  pte ||| 0x40#32 ||| (if k = .store then 0x80#32 else 0#32)

/-- The physical address a leaf gives (R137). -/
def leafAddress (pte va : Word) : Level → PAddr
  | .page => pte.extractLsb' 10 22 ++ va.extractLsb' 0 12
  | .megapage => pte.extractLsb' 20 12 ++ va.extractLsb' 0 22

/-! ### The walk (R134) -/

/-- `VPN[i]` (R132). -/
def vpnIndex (va : Word) (i : Nat) : BitVec 10 := if i = 0 then va.extractLsb' 12 10 else va.extractLsb' 22 10

/-- The address of the entry for `va` in the level-`i` table at `a` (R134). -/
def pteAddress (a : PAddr) (va : Word) (i : Nat) : PAddr := a + (vpnIndex va i ++ 0#2).setWidth 34

/-- Walk `levels` more levels from the table at `a` (R134). -/
def walkFrom (s : State) (va : Word) : Nat → PAddr → WalkResult
  | 0, _ => .pageFault
  | i + 1, a =>
    match physTarget s.config (pteAddress a va i) 4 .load with
    | none => .accessFault
    | some t =>
      match physRead s t (pteAddress a va i) .word with
      | none => .refused .platformDevice
      | some pte =>
        if pteInvalid pte then .pageFault
        else if pteLeaf pte then .leaf pte (pteAddress a va i) (if i = 0 then .page else .megapage)
        else walkFrom s va i (pageBase (pte.extractLsb' 10 22))

/-- The walk from the root table that `satp` names. -/
def walk (s : State) (va : Word) : WalkResult := walkFrom s va 2 (pageBase (s.satp.extractLsb' 0 22))

/-! ### The TLBs (10_state.md R65, 20_memory.md R140) -/

/-- The TLB an access kind uses. -/
def State.tlb (s : State) (k : AccessKind) : List TlbEntry := if k = .fetch then s.itlb else s.dtlb

/-- The state with that TLB replaced. -/
def State.setTlb (s : State) (k : AccessKind) (t : List TlbEntry) : State :=
  { s with itlb := if k = .fetch then t else s.itlb, dtlb := if k = .fetch then s.dtlb else t }

/-- How many entries that TLB holds (`TLB_ENTRIES`). -/
def tlbSize (c : Config) (k : AccessKind) : Nat := if k = .fetch then c.itlbEntries else c.dtlbEntries

/-- The entry can translate `va` (R140). -/
def TlbEntry.covers (e : TlbEntry) (va : Word) : Bool :=
  match e.level with
  | .page => e.vpn == va.extractLsb' 12 20
  | .megapage => e.vpn.extractLsb' 10 10 == va.extractLsb' 22 10

/-- Replacement: any entry may have been dropped by now. -/
def State.dropTlbEntries (s : State) (k : AccessKind) : State :=
  s.setTlb k ((s.tlb k).filter fun e => Config.tlbKeeps s.draws e.vpn e.pte (e.level == .megapage))

/-- The state with an entry removed from that TLB. -/
def State.forgetTlbEntry (s : State) (k : AccessKind) (e : TlbEntry) : State :=
  s.setTlb k ((s.tlb k).erase e)

/-- The state after a walk for `va` found the leaf `pte`: the TLB may cache it. `n` is the draw. -/
def State.fillTlb (s : State) (k : AccessKind) (va pte : Word) (l : Level) (n : Nat) : State :=
  let e : TlbEntry := ⟨va.extractLsb' 12 20, pte, l⟩
  s.setTlb k ((if Config.tlbFills n then e :: (s.tlb k).erase e else s.tlb k).take (tlbSize s.config k))

/-- The entries a translation of `va` may use: those of its TLB, and for a fetch also entries removed while it
may already have been under way (46_system.md R366). -/
def State.tlbCandidates (s : State) (va : Word) (k : AccessKind) : List TlbEntry :=
  (s.tlb k).filter (·.covers va) ++
    (if k = .fetch then (s.itlbGhosts.map (·.entry)).filter (·.covers va) else [])

/-- The candidate the draw `c` picks; none means to walk. With no candidate there is nothing to draw. -/
def pickCandidate : List TlbEntry → Nat → Option TlbEntry
  | [], _ => none
  | e :: es, c => (e :: es)[c % (es.length + 2)]?

/-! ### Translation -/

/-- Translate by a walk: the checks of the leaf, its A/D update in memory, the cached copy
(R134 to R139). `n` is the draw. -/
def translateByWalk (s : State) (va : Word) (k : AccessKind) (n : Nat) : Access PAddr :=
  match walk s va with
  | .refused r => .refused r
  | .accessFault => .raise (accessFaultOf k) s
  | .pageFault => .raise (pageFaultOf k) s
  | .leaf pte pteAddr l =>
    if !leafAllows s.priv s.mstatus k pte l then .raise (pageFaultOf k) s
    else if needsUpdate pte k then
      match physTarget s.config pteAddr 4 .store with
      | none => .raise (accessFaultOf k) s
      | some t =>
        match physWrite s t pteAddr .word (updatedPte pte k) with
        | none => .refused .platformDevice
        | some s' => .done (leafAddress pte va l) (s'.fillTlb k va (updatedPte pte k) l n)
    else .done (leafAddress pte va l) (s.fillTlb k va pte l n)

/-- Translate through Sv32: by a cached entry or by a walk (R140). An entry that fails its checks raises the
page fault at once or is dropped and re-walked; one that would need an A/D update is replaced by a walk. -/
def translateSv32 (s : State) (va : Word) (k : AccessKind) : Access PAddr :=
  let s1 := { s.dropTlbEntries k with draws := s.draws + 1 }
  match pickCandidate (s1.tlbCandidates va k) (Config.tlbChoice s.draws) with
  | none => translateByWalk s1 va k s.draws
  | some e =>
    if !leafAllows s1.priv s1.mstatus k e.pte e.level then
      if Config.tlbFaultsAtOnce s.draws then .raise (pageFaultOf k) s1
      else translateByWalk (s1.forgetTlbEntry k e) va k s.draws
    else if needsUpdate e.pte k then translateByWalk (s1.forgetTlbEntry k e) va k s.draws
    else .done (leafAddress e.pte va e.level) s1

/-- `Translate(va, acc)` (R130, R131). -/
def translate (s : State) (va : Word) (k : AccessKind) : Access PAddr :=
  if s.translates then translateSv32 s va k else .done (va.setWidth 34) s

end Sys2Proof.Machine
end

