-- ==== Sys2Proof/Machine/Ops.lean ====
section
/-! DEFINITION. The shared operations every meaning is written with: completing an instruction, taking a trap
and returning from one (60_exceptions.md R430 to R436, 46_system.md R363 to R365), and the access primitives
`Fetch`, `MemRead`, `MemWrite`, `MemReadAMO` (20_memory.md R119 to R122). -/

namespace Sys2Proof.Machine

/-- What a step or an instruction answers. -/
abbrev Result := Host.Outcome State Fault Refusal

/-! ### Completing an instruction (00_scope.md R12 step 6, 10_state.md R28) -/

/-- The instruction has retired: it counts in `minstret` (10_state.md R62) and its pc is in the PC trace
(60_exceptions.md R474). -/
def State.retire (s : State) : State :=
  { s with minstret := s.minstret + 1#64, pcTrace := s.pc :: s.pcTrace }

/-- Complete, the next instruction following in memory: `pc + 4` modulo 2^32 (R28, R29). -/
def State.advance (s : State) : State := { s.retire with pc := s.pc + 4#32 }

/-- Forget what a fetch made ahead of a redirect could have seen (20_memory.md R160 (a)). -/
def State.flushFetch (s : State) : State := { s with fetchWindow := [], itlbGhosts := [] }

/-- Complete, the next instruction being the one at `t` (R28): a redirect. -/
def State.jump (s : State) (t : Word) : State := { s.retire.flushFetch with pc := t }

/-- Write the result to `rd` and complete (40_rv32i_compute.md R220). -/
def writeBack (rd : Reg) (v : Word) (s : State) : Result := .next (s.setX rd v).advance

/-! ### Taking a trap (60_exceptions.md R430 to R433) -/

/-- Exception codes (R401). -/
def Exc.code : Exc → Nat
  | .instructionAddressMisaligned => 0
  | .instructionAccessFault => 1
  | .illegalInstruction => 2
  | .breakpoint => 3
  | .loadAddressMisaligned => 4
  | .loadAccessFault => 5
  | .storeAmoAddressMisaligned => 6
  | .storeAmoAccessFault => 7
  | .environmentCallFromU => 8
  | .environmentCallFromS => 9
  | .environmentCallFromM => 11
  | .instructionPageFault => 12
  | .loadPageFault => 13
  | .storeAmoPageFault => 15

/-- The value of `mcause` or `scause`: bit 31 marks an interrupt (10_state.md R45). -/
def causeWord (interrupt : Bool) (code : Nat) : Word :=
  (if interrupt then 0x80000000#32 else 0#32) ||| BitVec.ofNat 32 code

/-- `{tvec.BASE, 2'b00}` (10_state.md R40). -/
def tvecBase (tvec : Word) : Word := tvec &&& 0xFFFFFFFC#32

/-- Where a trap goes (R432): to BASE, or in Vectored mode to BASE + 4 * code for an interrupt, and for a
synchronous exception only with `VECTORED_SYNC_EXCEPTIONS`. MODE 2 and 3 cannot be stored (log 25). -/
def trapVector (c : Config) (tvec : Word) (interrupt : Bool) (code : Nat) : Word :=
  if tvec.extractLsb' 0 2 = 0b01#2 ∧ (interrupt = true ∨ c.vectoredSyncExceptions = true) then
    tvecBase tvec + 4#32 * BitVec.ofNat 32 code
  else tvecBase tvec

/-- The trap is handled in S-mode: raised below M and delegated (R433). -/
def State.delegated (s : State) (interrupt : Bool) (code : Nat) : Bool :=
  s.priv != .M && (if interrupt then s.mideleg.getLsbD code else s.medeleg.getLsbD code)

/-- Trap entry (R431), for an exception or an interrupt. Being a redirect, it also empties what the fetch path
holds (20_memory.md R160). -/
def takeTrap (interrupt : Bool) (code : Nat) (epc tval : Word) (s : State) : State :=
  let s' := { s.flushFetch with reservation := { s.reservation with valid := false } }
  if s.delegated interrupt code then
    { s' with
      sepc := epc
      scause := causeWord interrupt code
      stval := tval
      mstatus := statusEnterS s.mstatus s.priv
      priv := .S
      pc := trapVector s.config s.stvec interrupt code }
  else
    { s' with
      mepc := epc
      mcause := causeWord interrupt code
      mtval := tval
      mstatus := statusEnterM s.mstatus s.priv
      priv := .M
      pc := trapVector s.config s.mtvec interrupt code }

/-- `raise E(info)`: the trap of the instruction at `pc` (R430). -/
def raiseExc (e : Exc) (info : Word) (s : State) : State := takeTrap false e.code s.pc info s

/-- `raise IllegalInstruction` for the instruction word `inst` (R425: its trap value is the word, or 0 without
`TVAL_ILLEGAL_IS_INSTR`). -/
def raiseIllegal (inst : Word) (s : State) : State :=
  raiseExc .illegalInstruction (if s.config.tvalIllegalIsInstr then inst else 0#32) s

/-! ### Returning from a trap (46_system.md R363 to R365) -/

/-- What MRET does in M-mode (R364). MPP = 10 cannot be stored (10_state.md R36; log 24). -/
def returnFromM (s : State) : Result :=
  match privOfBits (statusMPP s.mstatus) with
  | some p => .next { s.jump s.mepc with mstatus := statusLeaveM s.mstatus, priv := p }
  | none => .fault .mppReserved

/-- What SRET does in S- or M-mode (R365). -/
def returnFromS (s : State) : State :=
  { s.jump s.sepc with
    mstatus := statusLeaveS s.mstatus
    priv := if statusSPP s.mstatus then .S else .U }

/-! ### Accesses -/

/-- Go on with the value and the state of an access that completed. -/
def Access.bind {α β : Type} (a : Access α) (f : α → State → Access β) : Access β :=
  match a with
  | .done v s => f v s
  | .raise e s => .raise e s
  | .refused r => .refused r

/-- End an instruction with its access: complete it, or take the exception with the address as trap value
(60_exceptions.md R425). -/
def Access.finish {α : Type} (a : Access α) (tval : Word) (f : α → State → State) : Result :=
  match a with
  | .done v s => .next (f v s)
  | .raise e s => .next (raiseExc e tval s)
  | .refused r => .refused r

/-- Check `PhysAccessOK` and read, the failure raising the access fault of kind `flt`
(20_memory.md R107, R120). -/
def physLoad (s : State) (pa : PAddr) (w : Width) (flt : AccessKind) : Access Word :=
  match physTarget s.config pa w.bytes .load with
  | none => .raise (accessFaultOf flt) s
  | some t =>
    match physRead s t pa w with
    | some v => .done v s
    | none => .refused .platformDevice

/-- How many instructions after a store may have been fetched before it (20_memory.md R160). -/
def fetchAhead : Nat := 4

/-- The bytes at `a` and up, as a fetch made before they are overwritten sees them. -/
def staleBytes (m : Memory) (a n : Nat) : List StaleByte :=
  (List.range n).map fun i => ⟨a + i, m.read (a + i), fetchAhead⟩

/-- An explicit store to `t` is about to write `n` bytes at `a`: the old bytes stay visible to the fetches that
may already be under way (R160 (b)). -/
def State.noteStore (s : State) (t : Target) (a n : Nat) : State :=
  { s with fetchWindow := if t = .memory then staleBytes s.mem a n ++ s.fetchWindow else s.fetchWindow }

/-- The write of a store instruction to a permitted target. -/
def storeTo (s : State) (t : Target) (pa : PAddr) (w : Width) (v : Word) : Access Unit :=
  match physWrite (s.noteStore t pa.toNat w.bytes) t pa w v with
  | some s' => .done () s'
  | none => .refused .platformDevice

/-- Check `PhysAccessOK` and write (20_memory.md R121). -/
def physStore (s : State) (pa : PAddr) (w : Width) (v : Word) : Access Unit :=
  match physTarget s.config pa w.bytes .store with
  | none => .raise .storeAmoAccessFault s
  | some t => storeTo s t pa w v

/-- `MemRead(va, n)` (R120), zero-extended. -/
def memRead (s : State) (va : Word) (w : Width) : Access Word :=
  (translate s va .load).bind fun pa s1 => physLoad s1 pa w .load

/-- `MemWrite(va, n, v)` (R121). -/
def memWrite (s : State) (va : Word) (w : Width) (v : Word) : Access Unit :=
  (translate s va .store).bind fun pa s1 => physStore s1 pa w v

/-! ### Instruction fetch (R119, R160) -/

/-- The old values a fetch may still see at an address. -/
def staleValues (window : List StaleByte) (a : Nat) : List Byte :=
  (window.filter (fun b => b.addr == a)).map (·.old)

/-- The byte a fetch sees at `a`, byte `k` of its word: the byte in memory, or one a recent store replaced. -/
def State.fetchByte (s : State) (a k : Nat) : Byte :=
  match staleValues s.fetchWindow a with
  | [] => s.mem.read a
  | v :: vs => (s.mem.read a :: v :: vs).getD (Config.fetchPick s.draws k % (vs.length + 2)) (s.mem.read a)

/-- The instruction word a fetch at physical address `a` sees (R102). -/
def State.fetchWordAt (s : State) (a : Nat) : Word :=
  wordOfBytes (s.fetchByte a 0) (s.fetchByte (a + 1) 1) (s.fetchByte (a + 2) 2) (s.fetchByte (a + 3) 3)

/-- One more fetch has been made: what it could see has aged by one (R160 (b), (c)). -/
def State.ageFetch (s : State) : State :=
  { s with
    fetchWindow := (s.fetchWindow.filter (1 < ·.fetches)).map fun b => { b with fetches := b.fetches - 1 }
    itlbGhosts := (s.itlbGhosts.filter (1 < ·.fetches)).map fun g => { g with fetches := g.fetches - 1 }
    draws := if s.fetchWindow.isEmpty then s.draws else s.draws + 1 }

/-- `Fetch(pc)` (R119). -/
def fetch (s : State) : Access Word :=
  (translate s s.pc .fetch).bind fun pa s1 =>
    match physTarget s1.config pa 4 .fetch with
    | none => .raise .instructionAccessFault s1
    | some .memory => .done (s1.fetchWordAt pa.toNat) s1.ageFetch
    | some _ => .refused .platformDevice

/-! ### The shapes of loads and stores (42_rv32i_loadstore.md R279) -/

/-- Sign-extend the low bytes an access of the width moves (R271, R272). -/
def extendSigned (w : Width) (v : Word) : Word :=
  match w with
  | .byte => (v.setWidth 8).signExtend 32
  | .half => (v.setWidth 16).signExtend 32
  | .word => v

/-- A load from `ea`: alignment, access, extension, register write (R279). -/
def loadInto (rd : Reg) (ea : Word) (w : Width) (extend : Word → Word) (s : State) : Result :=
  if !aligned ea w then .next (raiseExc .loadAddressMisaligned ea s)
  else (memRead s ea w).finish ea fun v s1 => (s1.setX rd (extend v)).advance

/-- A store of `v` to `ea`: alignment, access (R279). -/
def storeFrom (ea : Word) (w : Width) (v : Word) (s : State) : Result :=
  if !aligned ea w then .next (raiseExc .storeAmoAddressMisaligned ea s)
  else (memWrite s ea w v).finish ea fun _ s1 => s1.advance

/-! ### The shapes of atomics (44_a_extension.md R312, R313, R317) -/

/-- LR.W (R312). -/
def loadReserved (rd : Reg) (ea : Word) (s : State) : Result :=
  if !aligned ea .word then .next (raiseExc .loadAddressMisaligned ea s)
  else
    ((translate s ea .load).bind fun pa s1 =>
      (physLoad s1 pa .word .load).bind fun v s2 => .done (pa, v) s2).finish ea fun r s1 =>
        ({ s1 with reservation := ⟨true, r.1.setWidth 32⟩ }.setX rd r.2).advance

/-- The reservation covers the word at `pa` (R313). -/
def State.reservedAt (s : State) (pa : PAddr) : Bool :=
  s.reservation.valid && s.reservation.addr == pa.setWidth 32

/-- The state with the reservation given up (R313). -/
def State.dropReservation (s : State) : State :=
  { s with reservation := { s.reservation with valid := false } }

/-- The test and write of SC.W at a translated address (R313): the status it returns is 0 for success. -/
def conditionalStore (s : State) (pa : PAddr) (v : Word) : Access Word :=
  match physTarget s.config pa 4 .store with
  | none => .raise .storeAmoAccessFault s
  | some t =>
    if s.reservedAt pa then (storeTo s t pa .word v).bind fun _ s1 => .done 0#32 s1
    else .done 1#32 s

/-- SC.W (R313). -/
def storeConditional (rd : Reg) (ea v : Word) (s : State) : Result :=
  if !aligned ea .word then .next (raiseExc .storeAmoAddressMisaligned ea s)
  else
    ((translate s ea .store).bind fun pa s1 => conditionalStore s1 pa v).finish ea fun status s1 =>
      (s1.dropReservation.setX rd status).advance

/-- The read and write of an AMO at a translated address, which needs both kinds of access
(20_memory.md R122): the old value. -/
def readModifyWrite (s : State) (pa : PAddr) (f : Word → Word) : Access Word :=
  match physTarget s.config pa 4 .load, physTarget s.config pa 4 .store with
  | some t, some t' =>
    match physRead s t pa .word with
    | some old => (storeTo s t' pa .word (f old)).bind fun _ s1 => .done old s1
    | none => .refused .platformDevice
  | _, _ => .raise .storeAmoAccessFault s

/-- An AMO with operation `op` (R317). -/
def atomicOp (rd : Reg) (ea src : Word) (op : Word → Word → Word) (s : State) : Result :=
  if !aligned ea .word then .next (raiseExc .storeAmoAddressMisaligned ea s)
  else
    ((translate s ea .store).bind fun pa s1 => readModifyWrite s1 pa (op · src)).finish ea fun old s1 =>
      (s1.setX rd old).advance

/-! ### The shapes of jumps and branches (41_rv32i_control.md R250, R251) -/

/-- Jump to `t` and link; a misaligned target raises on the jump and writes nothing (R251 to R253). -/
def jumpAndLink (rd : Reg) (t : Word) (s : State) : State :=
  if misalignedTarget t then raiseExc .instructionAddressMisaligned t s
  else (s.setX rd (s.pc + 4#32)).jump t

/-- Branch by the offset when the condition holds (R250, R251). -/
def branchIf (cond : Bool) (offset : BitVec 13) (s : State) : State :=
  if cond then
    if misalignedTarget (s.pc + immB offset) then
      raiseExc .instructionAddressMisaligned (s.pc + immB offset) s
    else s.jump (s.pc + immB offset)
  else s.advance

end Sys2Proof.Machine
end

