-- ==== Sys2Proof/Machine/Atomic.lean ====
section
/-! DEFINITION. Load-reserved, store-conditional and the AMOs (44_a_extension.md R310 to R327). -/

namespace Sys2Proof.Machine

/-! ### The operations of the AMOs -/

/-- Signed minimum (R323). -/
def minSigned (old src : Word) : Word := if old.slt src then old else src

/-- Signed maximum (R324). -/
def maxSigned (old src : Word) : Word := if src.slt old then old else src

/-- Unsigned minimum (R325). -/
def minUnsigned (old src : Word) : Word := if old.ult src then old else src

/-- Unsigned maximum (R326). -/
def maxUnsigned (old src : Word) : Word := if src.ult old then old else src

/-! ### The instructions: `aq` and `rl` have no effect (R311) -/

/-- LR.W (R312). -/
def execLrW (rd rs1 : Reg) (_aq _rl : Bool) (s : State) : Result := loadReserved rd (s.x rs1) s

/-- SC.W (R313). -/
def execScW (rd rs1 rs2 : Reg) (_aq _rl : Bool) (s : State) : Result :=
  storeConditional rd (s.x rs1) (s.x rs2) s

/-- AMOSWAP.W (R318). -/
def execAmoswapW (rd rs1 rs2 : Reg) (_aq _rl : Bool) (s : State) : Result :=
  atomicOp rd (s.x rs1) (s.x rs2) (fun _ src => src) s

/-- AMOADD.W (R319). -/
def execAmoaddW (rd rs1 rs2 : Reg) (_aq _rl : Bool) (s : State) : Result :=
  atomicOp rd (s.x rs1) (s.x rs2) (· + ·) s

/-- AMOXOR.W (R320). -/
def execAmoxorW (rd rs1 rs2 : Reg) (_aq _rl : Bool) (s : State) : Result :=
  atomicOp rd (s.x rs1) (s.x rs2) (· ^^^ ·) s

/-- AMOAND.W (R321). -/
def execAmoandW (rd rs1 rs2 : Reg) (_aq _rl : Bool) (s : State) : Result :=
  atomicOp rd (s.x rs1) (s.x rs2) (· &&& ·) s

/-- AMOOR.W (R322). -/
def execAmoorW (rd rs1 rs2 : Reg) (_aq _rl : Bool) (s : State) : Result :=
  atomicOp rd (s.x rs1) (s.x rs2) (· ||| ·) s

/-- AMOMIN.W (R323). -/
def execAmominW (rd rs1 rs2 : Reg) (_aq _rl : Bool) (s : State) : Result :=
  atomicOp rd (s.x rs1) (s.x rs2) minSigned s

/-- AMOMAX.W (R324). -/
def execAmomaxW (rd rs1 rs2 : Reg) (_aq _rl : Bool) (s : State) : Result :=
  atomicOp rd (s.x rs1) (s.x rs2) maxSigned s

/-- AMOMINU.W (R325). -/
def execAmominuW (rd rs1 rs2 : Reg) (_aq _rl : Bool) (s : State) : Result :=
  atomicOp rd (s.x rs1) (s.x rs2) minUnsigned s

/-- AMOMAXU.W (R326). -/
def execAmomaxuW (rd rs1 rs2 : Reg) (_aq _rl : Bool) (s : State) : Result :=
  atomicOp rd (s.x rs1) (s.x rs2) maxUnsigned s

end Sys2Proof.Machine
end

