-- ==== Sys2Proof/Machine/Compute.lean ====
section
/-! DEFINITION. The integer computational instructions (40_rv32i_compute.md R220 to R242). -/

namespace Sys2Proof.Machine

/-- LUI (R221). -/
def execLui (rd : Reg) (imm20 : BitVec 20) (s : State) : Result := writeBack rd (immU imm20) s

/-- AUIPC (R222). -/
def execAuipc (rd : Reg) (imm20 : BitVec 20) (s : State) : Result := writeBack rd (s.pc + immU imm20) s

/-- ADDI (R223). -/
def execAddi (rd rs1 : Reg) (imm : BitVec 12) (s : State) : Result := writeBack rd (s.x rs1 + immI imm) s

/-- SLTI (R224). -/
def execSlti (rd rs1 : Reg) (imm : BitVec 12) (s : State) : Result :=
  writeBack rd (setLess (s.x rs1) (immI imm)) s

/-- SLTIU (R225). -/
def execSltiu (rd rs1 : Reg) (imm : BitVec 12) (s : State) : Result :=
  writeBack rd (setLessU (s.x rs1) (immI imm)) s

/-- XORI (R226). -/
def execXori (rd rs1 : Reg) (imm : BitVec 12) (s : State) : Result := writeBack rd (s.x rs1 ^^^ immI imm) s

/-- ORI (R227). -/
def execOri (rd rs1 : Reg) (imm : BitVec 12) (s : State) : Result := writeBack rd (s.x rs1 ||| immI imm) s

/-- ANDI (R228). -/
def execAndi (rd rs1 : Reg) (imm : BitVec 12) (s : State) : Result := writeBack rd (s.x rs1 &&& immI imm) s

/-- SLLI (R229). -/
def execSlli (rd rs1 : Reg) (shamt : BitVec 5) (s : State) : Result :=
  writeBack rd (s.x rs1 <<< shamt.toNat) s

/-- SRLI (R230). -/
def execSrli (rd rs1 : Reg) (shamt : BitVec 5) (s : State) : Result :=
  writeBack rd (s.x rs1 >>> shamt.toNat) s

/-- SRAI (R231). -/
def execSrai (rd rs1 : Reg) (shamt : BitVec 5) (s : State) : Result :=
  writeBack rd ((s.x rs1).sshiftRight shamt.toNat) s

/-- ADD (R232). -/
def execAdd (rd rs1 rs2 : Reg) (s : State) : Result := writeBack rd (s.x rs1 + s.x rs2) s

/-- SUB (R233). -/
def execSub (rd rs1 rs2 : Reg) (s : State) : Result := writeBack rd (s.x rs1 - s.x rs2) s

/-- SLL (R234). -/
def execSll (rd rs1 rs2 : Reg) (s : State) : Result := writeBack rd (s.x rs1 <<< shiftAmount (s.x rs2)) s

/-- SLT (R235). -/
def execSlt (rd rs1 rs2 : Reg) (s : State) : Result := writeBack rd (setLess (s.x rs1) (s.x rs2)) s

/-- SLTU (R236). -/
def execSltu (rd rs1 rs2 : Reg) (s : State) : Result := writeBack rd (setLessU (s.x rs1) (s.x rs2)) s

/-- XOR (R237). -/
def execXor (rd rs1 rs2 : Reg) (s : State) : Result := writeBack rd (s.x rs1 ^^^ s.x rs2) s

/-- SRL (R238). -/
def execSrl (rd rs1 rs2 : Reg) (s : State) : Result := writeBack rd (s.x rs1 >>> shiftAmount (s.x rs2)) s

/-- SRA (R239). -/
def execSra (rd rs1 rs2 : Reg) (s : State) : Result :=
  writeBack rd ((s.x rs1).sshiftRight (shiftAmount (s.x rs2))) s

/-- OR (R240). -/
def execOr (rd rs1 rs2 : Reg) (s : State) : Result := writeBack rd (s.x rs1 ||| s.x rs2) s

/-- AND (R241). -/
def execAnd (rd rs1 rs2 : Reg) (s : State) : Result := writeBack rd (s.x rs1 &&& s.x rs2) s

end Sys2Proof.Machine
end

