-- ==== Sys2Proof/Machine/Control.lean ====
section
/-! DEFINITION. Jumps and branches (41_rv32i_control.md R250 to R261). -/

namespace Sys2Proof.Machine

/-- JAL (R252). -/
def execJal (rd : Reg) (offset : BitVec 21) (s : State) : Result := .next (jumpAndLink rd (s.pc + immJ offset) s)

/-- JALR (R253): bit 0 of the sum is cleared. -/
def execJalr (rd rs1 : Reg) (imm : BitVec 12) (s : State) : Result :=
  .next (jumpAndLink rd ((s.x rs1 + immI imm) &&& 0xFFFFFFFE#32) s)

/-- BEQ (R254). -/
def execBeq (rs1 rs2 : Reg) (offset : BitVec 13) (s : State) : Result :=
  .next (branchIf (s.x rs1 == s.x rs2) offset s)

/-- BNE (R255). -/
def execBne (rs1 rs2 : Reg) (offset : BitVec 13) (s : State) : Result :=
  .next (branchIf (s.x rs1 != s.x rs2) offset s)

/-- BLT (R256). -/
def execBlt (rs1 rs2 : Reg) (offset : BitVec 13) (s : State) : Result :=
  .next (branchIf ((s.x rs1).slt (s.x rs2)) offset s)

/-- BGE (R257). -/
def execBge (rs1 rs2 : Reg) (offset : BitVec 13) (s : State) : Result :=
  .next (branchIf (!(s.x rs1).slt (s.x rs2)) offset s)

/-- BLTU (R258). -/
def execBltu (rs1 rs2 : Reg) (offset : BitVec 13) (s : State) : Result :=
  .next (branchIf ((s.x rs1).ult (s.x rs2)) offset s)

/-- BGEU (R259). -/
def execBgeu (rs1 rs2 : Reg) (offset : BitVec 13) (s : State) : Result :=
  .next (branchIf (!(s.x rs1).ult (s.x rs2)) offset s)

end Sys2Proof.Machine
end

