-- ==== Sys2Proof/Machine/LoadStore.lean ====
section
/-! DEFINITION. Loads, stores and FENCE (42_rv32i_loadstore.md R270 to R281). -/

namespace Sys2Proof.Machine

/-- LB (R271). -/
def execLb (rd rs1 : Reg) (imm : BitVec 12) (s : State) : Result :=
  loadInto rd (effectiveAddress s rs1 (immI imm)) .byte (extendSigned .byte) s

/-- LH (R272). -/
def execLh (rd rs1 : Reg) (imm : BitVec 12) (s : State) : Result :=
  loadInto rd (effectiveAddress s rs1 (immI imm)) .half (extendSigned .half) s

/-- LW (R273). -/
def execLw (rd rs1 : Reg) (imm : BitVec 12) (s : State) : Result :=
  loadInto rd (effectiveAddress s rs1 (immI imm)) .word id s

/-- LBU (R274). -/
def execLbu (rd rs1 : Reg) (imm : BitVec 12) (s : State) : Result :=
  loadInto rd (effectiveAddress s rs1 (immI imm)) .byte id s

/-- LHU (R275). -/
def execLhu (rd rs1 : Reg) (imm : BitVec 12) (s : State) : Result :=
  loadInto rd (effectiveAddress s rs1 (immI imm)) .half id s

/-- SB (R276). -/
def execSb (rs1 rs2 : Reg) (imm : BitVec 12) (s : State) : Result :=
  storeFrom (effectiveAddress s rs1 (immS imm)) .byte (s.x rs2) s

/-- SH (R277). -/
def execSh (rs1 rs2 : Reg) (imm : BitVec 12) (s : State) : Result :=
  storeFrom (effectiveAddress s rs1 (immS imm)) .half (s.x rs2) s

/-- SW (R278). -/
def execSw (rs1 rs2 : Reg) (imm : BitVec 12) (s : State) : Result :=
  storeFrom (effectiveAddress s rs1 (immS imm)) .word (s.x rs2) s

/-- FENCE (R281): every access is already ordered with every other, so it only completes; `rs1`, `rd`, `fm`, `pred`
and `succ` are ignored. -/
def execFence (_fm _pred _succ : BitVec 4) (_rs1 _rd : Reg) (s : State) : Result := .next s.advance

end Sys2Proof.Machine
end

