-- ==== Sys2Proof/Machine/MulDiv.lean ====
section
/-! DEFINITION. Multiplication, division and remainder (43_m_extension.md R290 to R300). None raises an exception. -/

namespace Sys2Proof.Machine

/-! ### Results, computed exactly and then narrowed (43_m_extension.md R290) -/

/-- Bits 63:32 of the 64-bit two's-complement form of an exact product. -/
def highHalf (p : Int) : Word := (BitVec.ofInt 64 p).extractLsb' 32 32

/-- Signed quotient, rounded toward zero, with the special rows of R299 (R295). -/
def divSigned (a b : Word) : Word :=
  if b = 0#32 then 0xFFFFFFFF#32
  else if a = 0x80000000#32 ∧ b = 0xFFFFFFFF#32 then 0x80000000#32
  else BitVec.ofInt 32 (a.toInt.tdiv b.toInt)

/-- Unsigned quotient, with the special row of R299 (R296). -/
def divUnsigned (a b : Word) : Word :=
  if b = 0#32 then 0xFFFFFFFF#32 else BitVec.ofNat 32 (a.toNat / b.toNat)

/-- Signed remainder, its sign that of the dividend, with the special rows of R299 (R297). -/
def remSigned (a b : Word) : Word :=
  if b = 0#32 then a
  else if a = 0x80000000#32 ∧ b = 0xFFFFFFFF#32 then 0#32
  else BitVec.ofInt 32 (a.toInt - b.toInt * a.toInt.tdiv b.toInt)

/-- Unsigned remainder, with the special row of R299 (R298). -/
def remUnsigned (a b : Word) : Word :=
  if b = 0#32 then a else BitVec.ofNat 32 (a.toNat % b.toNat)

/-! ### The instructions -/

/-- MUL (R291). -/
def execMul (rd rs1 rs2 : Reg) (s : State) : Result := writeBack rd (s.x rs1 * s.x rs2) s

/-- MULH (R292). -/
def execMulh (rd rs1 rs2 : Reg) (s : State) : Result :=
  writeBack rd (highHalf ((s.x rs1).toInt * (s.x rs2).toInt)) s

/-- MULHSU (R293). -/
def execMulhsu (rd rs1 rs2 : Reg) (s : State) : Result :=
  writeBack rd (highHalf ((s.x rs1).toInt * (s.x rs2).toNat)) s

/-- MULHU (R294). -/
def execMulhu (rd rs1 rs2 : Reg) (s : State) : Result :=
  writeBack rd (highHalf ((s.x rs1).toNat * (s.x rs2).toNat)) s

/-- DIV (R295). -/
def execDiv (rd rs1 rs2 : Reg) (s : State) : Result := writeBack rd (divSigned (s.x rs1) (s.x rs2)) s

/-- DIVU (R296). -/
def execDivu (rd rs1 rs2 : Reg) (s : State) : Result := writeBack rd (divUnsigned (s.x rs1) (s.x rs2)) s

/-- REM (R297). -/
def execRem (rd rs1 rs2 : Reg) (s : State) : Result := writeBack rd (remSigned (s.x rs1) (s.x rs2)) s

/-- REMU (R298). -/
def execRemu (rd rs1 rs2 : Reg) (s : State) : Result := writeBack rd (remUnsigned (s.x rs1) (s.x rs2)) s

end Sys2Proof.Machine
end

