-- ==== Sys2Proof/Machine/System.lean ====
section
/-! DEFINITION. The system instructions (46_system.md R360 to R368). -/

namespace Sys2Proof.Machine

/-- The exception of an ECALL from a mode (R361). -/
def callFrom : Priv → Exc
  | .U => .environmentCallFromU
  | .S => .environmentCallFromS
  | .M => .environmentCallFromM

/-- ECALL (R361): traps, with trap value 0. -/
def execEcall (s : State) : Result := .next (raiseExc (callFrom s.priv) 0#32 s)

/-- EBREAK (R362): traps, with its own address as trap value. -/
def execEbreak (s : State) : Result := .next (raiseExc .breakpoint s.pc s)

/-- SRET (R365): illegal in U-mode. -/
def execSret (s : State) : Result :=
  if s.priv = .U then .next (raiseIllegal (encode .sret) s) else .next (returnFromS s)

/-- MRET (R364): illegal below M-mode. -/
def execMret (s : State) : Result :=
  if s.priv = .M then returnFromM s else .next (raiseIllegal (encode .mret) s)

/-- WFI (R367): illegal in U-mode, else a no-op. -/
def execWfi (s : State) : Result :=
  if s.priv = .U then .next (raiseIllegal (encode .wfi) s) else .next s.advance

/-- The TLB entries an SFENCE.VMA removes: all of them when the `rs1` field is 0, else those that can translate the
address in `rs1` (R366). -/
def fenceRemoves (s : State) (rs1 : Reg) (e : TlbEntry) : Bool := rs1 == 0#5 || e.covers (s.x rs1)

/-- The invalidation of SFENCE.VMA (R366). It is not a redirect: the fetches already made behind it may have used the
ITLB entries it removes (log 18). -/
def fenceTlbs (s : State) (rs1 : Reg) : State :=
  { s with
    itlb := s.itlb.filter fun e => !fenceRemoves s rs1 e
    dtlb := s.dtlb.filter fun e => !fenceRemoves s rs1 e
    itlbGhosts := (s.itlb.filter (fenceRemoves s rs1)).map (⟨·, fetchAhead⟩) ++ s.itlbGhosts }

/-- SFENCE.VMA (R366): illegal in U-mode; `rs2` is ignored. -/
def execSfenceVma (rs1 rs2 : Reg) (s : State) : Result :=
  if s.priv = .U then .next (raiseIllegal (encode (.sfenceVma rs1 rs2)) s) else .next (fenceTlbs s rs1).advance

end Sys2Proof.Machine
end

