-- ==== Sys2Proof/Machine/Csr.lean ====
section
/-! DEFINITION. The CSRs: addresses and access rules (10_state.md R32, R33, R62, R63), what each reads, its write
rule (R34 to R57), and the shape of the Zicsr instructions (45_zicsr.md R340, R341). -/

namespace Sys2Proof.Machine

/-! ### Addresses -/

/-- The addresses of 10_state.md R32. -/
def csrAddresses : List (CsrAddr × Csr) := [
  (0x100#12, .sstatus), (0x104#12, .sie), (0x105#12, .stvec), (0x140#12, .sscratch), (0x141#12, .sepc),
  (0x142#12, .scause), (0x143#12, .stval), (0x144#12, .sip), (0x180#12, .satp), (0x300#12, .mstatus),
  (0x301#12, .misa), (0x302#12, .medeleg), (0x303#12, .mideleg), (0x304#12, .mie), (0x305#12, .mtvec),
  (0x340#12, .mscratch), (0x341#12, .mepc), (0x342#12, .mcause), (0x343#12, .mtval), (0x344#12, .mip),
  (0xF11#12, .mvendorid), (0xF12#12, .marchid), (0xF13#12, .mimpid), (0xF14#12, .mhartid)]

/-- The addresses of the CSRs that R62 gives with `HAS_COUNTER_CSRS`, the hardware counters apart. -/
def counterAddresses : List (CsrAddr × Csr) := [
  (0xB00#12, .mcycle), (0xB02#12, .minstret), (0xB80#12, .mcycleh), (0xB82#12, .minstreth),
  (0x306#12, .mcounteren), (0x106#12, .scounteren)]

/-- `lo <= a <= hi`. -/
def addrIn (a : CsrAddr) (lo hi : Nat) : Bool := decide (lo ≤ a.toNat) && decide (a.toNat ≤ hi)

/-- `mhpmcounter3..31`, their high halves, `mhpmevent3..31` (R62). -/
def isHpmAddr (a : CsrAddr) : Bool := addrIn a 0xB03 0xB1F || addrIn a 0xB83 0xB9F || addrIn a 0x323 0x33F

/-- The addresses of R62 that stay absent with `HAS_COUNTER_CSRS`: `mcountinhibit`, the user counters and their
high halves, PMP, `mstatush`, the `envcfg` group, `mconfigptr`, `mseccfg`, debug and triggers. -/
def isOtherUnnamedAddr (a : CsrAddr) : Bool :=
  a == 0x320#12 || addrIn a 0xC00 0xC1F || addrIn a 0xC80 0xC9F || addrIn a 0x3A0 0x3A3 || addrIn a 0x3B0 0x3BF ||
    a == 0x310#12 || a == 0x30A#12 || a == 0x31A#12 || a == 0x10A#12 || a == 0xF15#12 || a == 0x747#12 ||
    addrIn a 0x7A0 0x7A3 || addrIn a 0x7B0 0x7B3

/-- The CSR listed for an address. -/
def listedCsr (l : List (CsrAddr × Csr)) (a : CsrAddr) : Option Csr := (l.find? (fun p => p.1 == a)).map (·.2)

/-- What an address names (R32, R62, R63). -/
def csrLookup (c : Config) (a : CsrAddr) : CsrLookup :=
  match listedCsr csrAddresses a with
  | some r => .present r
  | none =>
    match listedCsr counterAddresses a with
    | some r => if c.hasCounterCsrs then .present r else .unknown
    | none =>
      if isHpmAddr a then (if c.hasCounterCsrs then .present .hpmZero else .unknown)
      else if isOtherUnnamedAddr a then (if c.hasCounterCsrs then .absent else .unknown)
      else .absent

/-- The privilege and read-only checks of R33 (b), (c): `priv >= a[9:8]`, and no write when `a[11:10] = 11`. -/
def csrPermits (p : Priv) (a : CsrAddr) (willWrite : Bool) : Bool :=
  decide ((a.extractLsb' 8 2).toNat ≤ p.bits.toNat) && !(willWrite && a.extractLsb' 10 2 == 0b11#2)

/-! ### Masks -/

/-- The fields of `mstatus` (R34). -/
def mstatusMask : Word := 0x000C19AA#32
/-- The fields of `mstatus` that `sstatus` shows (R35). -/
def sstatusMask : Word := 0x000C0122#32
/-- R37. -/
def mieMask : Word := 0x00000AAA#32
/-- The S-level interrupts (R38, R39, R50). -/
def supervisorMask : Word := 0x00000222#32
/-- R49. -/
def medelegMask : Word := 0x0000B3FF#32
/-- `mepc`, `sepc`: bits 1:0 read zero (R43). -/
def epcMask : Word := 0xFFFFFFFC#32
/-- `misa` (R41). -/
def misaValue : Word := 0x40141101#32
/-- `satp` in the `riscv` layout: bit 30 is reserved (R55). -/
def satpMask : Word := 0xBFFFFFFF#32

/-! ### Reading -/

/-- MTIP: `mtime >= mtimecmp` as unsigned values (60_exceptions.md R460). -/
def State.timerPending (s : State) : Bool := decide (s.mtimecmp.toNat ≤ s.mtime.toNat)

/-- The supervisor external line, constant 0 unless `SEIP_EXTERNAL_LINE` (R38, 60_exceptions.md R441). -/
def State.seipLine (s : State) : Bool := s.config.seipExternalLine && s.extIrqS

/-- The line-driven bits of `mip` that software cannot write: MEIP, MTIP, MSIP (R38). -/
def State.lineBits (s : State) : Word :=
  boolWord s.extIrqM <<< 11 ||| boolWord s.timerPending <<< 7 ||| boolWord s.msip <<< 3

/-- `mip` with `seip_sw` in the place of SEIP (R38). -/
def State.mipStored (s : State) : Word := s.lineBits ||| s.mipSoft

/-- `mip` as read (R38). -/
def State.mip (s : State) : Word := s.mipStored ||| boolWord s.seipLine <<< 9

/-- What reading a CSR returns. -/
def State.readCsr (s : State) : Csr → Word
  | .sstatus => s.mstatus &&& sstatusMask
  | .sie => s.mie &&& s.mideleg &&& supervisorMask
  | .stvec => s.stvec
  | .sscratch => s.sscratch
  | .sepc => s.sepc
  | .scause => s.scause
  | .stval => s.stval
  | .sip => s.mip &&& s.mideleg &&& supervisorMask
  | .satp => s.satp
  | .mstatus => s.mstatus
  | .misa => misaValue
  | .medeleg => s.medeleg
  | .mideleg => s.mideleg
  | .mie => s.mie
  | .mtvec => s.mtvec
  | .mscratch => s.mscratch
  | .mepc => s.mepc
  | .mcause => s.mcause
  | .mtval => s.mtval
  | .mip => s.mip
  | .mvendorid => 0#32
  | .marchid => 0#32
  | .mimpid => 0#32
  | .mhartid => 0#32
  | .scounteren => s.scounteren
  | .mcounteren => s.mcounteren
  | .mcycle => s.mcycle.extractLsb' 0 32
  | .mcycleh => s.mcycle.extractLsb' 32 32
  | .minstret => s.minstret.extractLsb' 0 32
  | .minstreth => s.minstret.extractLsb' 32 32
  | .hpmZero => 0#32

/-- The value that CSRRS, CSRRC, CSRRSI and CSRRCI combine with their operand: as read, but `mip` with `seip_sw` for
bit 9. 10_state.md R38 and 45_zicsr.md R343, R344 say so of CSRRS and CSRRC; that it holds of the immediate forms (R346,
R347) too is the model's choice. DEDUCED, unsafe (log 37). -/
def State.readCsrToModify (s : State) : Csr → Word
  | .mip => s.mipStored
  | c => s.readCsr c

/-! ### Writing -/

/-- A write to `mstatus`: a new MPP of 10 leaves MPP as it is (R34, R36). -/
def legalMstatus (old v : Word) : Word :=
  if statusMPP v = 0b10#2 then writeMasked (mstatusMask &&& ~~~0x00001800#32) old v
  else writeMasked mstatusMask old v

/-- A write to `mtvec` or `stvec`: a reserved MODE keeps the old one (R40, R42). -/
def legalTvec (old v : Word) : Word :=
  if v.getLsbD 1 then writeMasked 0xFFFFFFFC#32 old v else v

/-- A write to `satp`: in the `riscv` layout bit 30 is not stored; in the `psd_text` layout a MODE of 2 or 3
ignores the write entirely (R55). -/
def legalSatp (c : Config) (old v : Word) : Word :=
  match c.satpLayout with
  | .riscv => v &&& satpMask
  | .psdText => if v.getLsbD 31 then old else v

/-- The write rule of each CSR. Read-only and fixed CSRs keep their value, and so do the counters, which read
what R62 says whatever is written (log 23). -/
def State.writeCsr (s : State) (c : Csr) (v : Word) : State :=
  match c with
  | .sstatus => { s with mstatus := writeMasked sstatusMask s.mstatus v }
  | .sie => { s with mie := writeMasked (s.mideleg &&& supervisorMask) s.mie v }
  | .stvec => { s with stvec := legalTvec s.stvec v }
  | .sscratch => { s with sscratch := v }
  | .sepc => { s with sepc := v &&& epcMask }
  | .scause => { s with scause := v }
  | .stval => { s with stval := v }
  | .sip => { s with mipSoft := writeMasked (s.mideleg &&& 0x00000002#32) s.mipSoft v }
  | .satp => { s with satp := legalSatp s.config s.satp v }
  | .mstatus => { s with mstatus := legalMstatus s.mstatus v }
  | .misa => s
  | .medeleg => { s with medeleg := v &&& medelegMask }
  | .mideleg => { s with mideleg := v &&& supervisorMask }
  | .mie => { s with mie := v &&& mieMask }
  | .mtvec => { s with mtvec := legalTvec s.mtvec v }
  | .mscratch => { s with mscratch := v }
  | .mepc => { s with mepc := v &&& epcMask }
  | .mcause => { s with mcause := v }
  | .mtval => { s with mtval := v }
  | .mip => { s with mipSoft := v &&& supervisorMask }
  | .mvendorid => s
  | .marchid => s
  | .mimpid => s
  | .mhartid => s
  | .scounteren => { s with scounteren := v }
  | .mcounteren => { s with mcounteren := v }
  | .mcycle => s
  | .mcycleh => s
  | .minstret => s
  | .minstreth => s
  | .hpmZero => s

/-! ### The shape of the six instructions (45_zicsr.md R340) -/

/-- A permitted access to the CSR: read it, write it when `willWrite`, write the old value to `rd`. -/
def csrReadWrite (rd : Reg) (c : Csr) (willWrite : Bool) (f : Word → Word) (s : State) : State :=
  let written := if willWrite then s.writeCsr c (f (s.readCsrToModify c)) else s
  (written.setX rd (s.readCsr c)).advance

/-- A CSR instruction whose word is `inst` (R340): the checks, then the access. `f` gives the new value from the
old one. -/
def csrInstruction (inst : Word) (rd : Reg) (a : CsrAddr) (willWrite : Bool) (f : Word → Word) (s : State) :
    Result :=
  if !csrPermits s.priv a willWrite then .next (raiseIllegal inst s)
  else
    match csrLookup s.config a with
    | .absent => .next (raiseIllegal inst s)
    | .unknown => .refused (.unknownCsr a)
    | .present c => .next (csrReadWrite rd c willWrite f s)

end Sys2Proof.Machine
end

