-- ==== Sys2Proof/Machine/Zicsr.lean ====
section
/-! DEFINITION. The CSR instructions (45_zicsr.md R340 to R348). Whether one writes is decided by its register number or immediate
field, not by a value (R341). -/

namespace Sys2Proof.Machine

/-- CSRRW (R342). -/
def execCsrrw (rd : Reg) (csr : CsrAddr) (rs1 : Reg) (s : State) : Result :=
  csrInstruction (encode (.csrrw rd csr rs1)) rd csr true (fun _ => s.x rs1) s

/-- CSRRS (R343). -/
def execCsrrs (rd : Reg) (csr : CsrAddr) (rs1 : Reg) (s : State) : Result :=
  csrInstruction (encode (.csrrs rd csr rs1)) rd csr (rs1 != 0#5) (· ||| s.x rs1) s

/-- CSRRC (R344). -/
def execCsrrc (rd : Reg) (csr : CsrAddr) (rs1 : Reg) (s : State) : Result :=
  csrInstruction (encode (.csrrc rd csr rs1)) rd csr (rs1 != 0#5) (· &&& ~~~(s.x rs1)) s

/-- CSRRWI (R345). -/
def execCsrrwi (rd : Reg) (csr : CsrAddr) (uimm : BitVec 5) (s : State) : Result :=
  csrInstruction (encode (.csrrwi rd csr uimm)) rd csr true (fun _ => immZ uimm) s

/-- CSRRSI (R346). -/
def execCsrrsi (rd : Reg) (csr : CsrAddr) (uimm : BitVec 5) (s : State) : Result :=
  csrInstruction (encode (.csrrsi rd csr uimm)) rd csr (uimm != 0#5) (· ||| immZ uimm) s

/-- CSRRCI (R347). -/
def execCsrrci (rd : Reg) (csr : CsrAddr) (uimm : BitVec 5) (s : State) : Result :=
  csrInstruction (encode (.csrrci rd csr uimm)) rd csr (uimm != 0#5) (· &&& ~~~(immZ uimm)) s

end Sys2Proof.Machine
end

