-- ==== Sys2Proof/Machine/Interrupts.lean ====
section
/-! DEFINITION. Interrupts: which can be taken, in what order, and taking one (60_exceptions.md R440 to R446). -/

namespace Sys2Proof.Machine

/-- The code of an interrupt, which is its bit in `mip` and `mie` (R440). -/
def Interrupt.code : Interrupt → Nat
  | .mei => 11
  | .mti => 7
  | .msi => 3
  | .sei => 9
  | .sti => 5
  | .ssi => 1

/-- The source's order within one target mode: external, timer, software, machine level first (R444). -/
def interruptOrder : List Interrupt := [.mei, .mti, .msi, .sei, .sti, .ssi]

/-- The interrupt is delegated: its target is S (R433). -/
def State.targetsS (s : State) (i : Interrupt) : Bool := s.mideleg.getLsbD i.code

/-- The current mode lets an interrupt of this target through (R443). -/
def State.globallyEnabled (s : State) (targetS : Bool) : Bool :=
  match s.priv with
  | .M => !targetS && statusMIE s.mstatus
  | .S => !targetS || statusSIE s.mstatus
  | .U => true

/-- Pending, enabled and let through (R443). -/
def State.takeable (s : State) (i : Interrupt) : Bool :=
  s.globallyEnabled (s.targetsS i) && s.mie.getLsbD i.code && s.mip.getLsbD i.code

/-- The interrupt taken at this boundary: those whose target is M come first (R444). -/
def State.pendingInterrupt (s : State) : Option Interrupt :=
  ((interruptOrder.filter fun i => !s.targetsS i) ++ interruptOrder.filter s.targetsS).find? s.takeable

/-- Taking an interrupt (R445). -/
def takeInterrupt (i : Interrupt) (s : State) : State := takeTrap true i.code s.pc 0#32 s

end Sys2Proof.Machine
end

