-- ==== Sys2Proof/Machine/Cycle.lean ====
section
/-! DEFINITION. The instruction cycle (00_scope.md R12), and how an instruction is placed where it fetches. -/

namespace Sys2Proof.Machine

/-- Steps 4 to 6 for a fetched word: decode and execute; a word of no row is illegal (30_encoding.md R194). -/
def executeWord (w : Word) (s : State) : Result :=
  match decodeWord w with
  | some i => exec i s
  | none => .next (raiseIllegal w s)

/-- Steps 3 to 6: fetch at `pc`, then execute; a failing fetch raises with `pc` as trap value (60_exceptions.md
R403, R413). -/
def instructionCycle (s : State) : Result :=
  match fetch s with
  | .done w s1 => executeWord w s1
  | .raise e s1 => .next (raiseExc e s1.pc s1)
  | .refused r => .refused r

/-- Steps 2 to 6: take the pending interrupt, or else run one instruction. -/
def afterBoundary (s : State) : Result :=
  match s.pendingInterrupt with
  | some i => .next (takeInterrupt i s)
  | none => instructionCycle s

/-! ### Placing an instruction -/

/-- The physical address the next fetch reads: `pc`, translated by the page table when translation is on. -/
def fetchAddress (s : State) : Nat :=
  if s.translates then
    match walk s s.pc with
    | .leaf pte _ l => (leafAddress pte s.pc l).toNat
    | _ => s.pc.toNat
  else s.pc.toNat

/-- The state with the four bytes of `w` in memory at `a`, as a loader puts them there: a fetch sees them. -/
def placeWord (s : State) (a : Nat) (w : Word) : State :=
  { s with
    mem := s.mem.store a .word w
    fetchWindow := s.fetchWindow.filter fun b => !(decide (a ≤ b.addr) && decide (b.addr < a + 4)) }

end Sys2Proof.Machine
end

