-- ==== Sys2Proof/Machine/Environment.lean ====
section
/-! DEFINITION. The boundary between two instructions: what the environment does there (00_scope.md R8, R12 step
1), and the reset input (70_reset_and_hazards.md R480 to R483). -/

namespace Sys2Proof.Machine

/-! ### The environment -/

/-- The byte at `a` is memory another bus master can write. -/
def isMemoryByte (c : Config) (a : Nat) : Bool :=
  inRam c a 1 || (decide (a < 2 ^ 32) && (match c.regions.find? (regionHolds · a 1) with
    | some r => r.kind == .memory
    | none => false))

/-- The reservation after another master wrote `n` bytes at `a`: a conflicting store clears it
(44_a_extension.md R316). -/
def reservationAfterForeign (r : Reservation) (a n : Nat) : Reservation :=
  if overlapsReserved r a n then { r with valid := false } else r

/-- Another master writes one byte; the old byte stays visible to fetches already made (20_memory.md R160 (d)). -/
def foreignByte (s : State) (a : Nat) (v : Byte) : State :=
  if isMemoryByte s.config a then
    { s with
      mem := s.mem.write a v
      fetchWindow := staleBytes s.mem a 1 ++ s.fetchWindow
      reservation := reservationAfterForeign s.reservation a 1 }
  else s

/-- Another master writes bytes at consecutive addresses from `a` up. -/
def foreignWrite (s : State) : Nat → List Byte → State
  | _, [] => s
  | a, v :: vs => foreignWrite (foreignByte s a v) (a + 1) vs

/-- Another master stores a word to a CLINT register (60_exceptions.md R462; log 29); elsewhere it does nothing. -/
def foreignClintStore (s : State) (addr v : Word) : State :=
  match physTarget s.config (addr.setWidth 34) 4 .store with
  | some (.clint r) =>
    { s.clintWrite r v with reservation := reservationAfterForeign s.reservation addr.toNat 4 }
  | _ => s

/-! ### The reset input -/

/-- The addresses at which two memories hold different bytes. -/
def changedAddresses (m m' : Memory) : List Nat :=
  ((m ++ m').map (·.1)).filter fun a => m.read a != m'.read a

/-- The memory `m` with each byte that `m'` changes either old or new. `n` is the draw. -/
def landSome (n : Nat) (m m' : Memory) : Memory :=
  (changedAddresses m m').foldl (fun acc a => if Config.storeLands n a then acc.write a (m'.read a) else acc) m

/-- The state that the instruction in flight would leave, were it not discarded. -/
def stepInFlight (s : State) : State :=
  match afterBoundary s with
  | .next t => t
  | _ => s

/-- The instruction in flight at a reset is discarded, but for its store: each byte of that may have reached memory or
not (70_reset_and_hazards.md R483, U19; log 15). -/
def discardInFlight (s : State) : State :=
  { s with
    mem := landSome (stepInFlight s).draws s.mem (stepInFlight s).mem
    draws := (stepInFlight s).draws + 1 }

/-- The general registers after an external reset: x0 is 0, the others hold any value (10_state.md R25, U1). -/
def resetRegs (n : Nat) : Vector Word 64 :=
  Vector.ofFn fun i => if i = 0 then 0#32 else Config.resetWord n i

/-- The registers at the reset input (70_reset_and_hazards.md R480 to R483): what the spec defines takes its reset value, memory
and the interrupt lines are not touched, and every register the spec leaves unspecified holds any value that is
legal for it (U1, U2, U6, U9; log 15). -/
def externalReset (s : State) : State :=
  let any (k : Nat) : Word := Config.resetWord s.draws k
  { s with
    regs := resetRegs s.draws
    pc := s.config.resetVector
    priv := .M
    mstatus := 0#32
    mie := any 64 &&& mieMask
    mipSoft := any 65 &&& supervisorMask
    mtvec := any 66 &&& 0xFFFFFFFD#32
    stvec := any 67 &&& 0xFFFFFFFD#32
    mepc := any 68 &&& epcMask
    sepc := any 69 &&& epcMask
    mcause := any 70
    scause := any 71
    mtval := any 72
    stval := any 73
    medeleg := any 74 &&& medelegMask
    mideleg := any 75 &&& supervisorMask
    mscratch := any 76
    sscratch := any 77
    satp := any 78 &&& 0x3FFFFFFF#32
    mcounteren := any 79
    scounteren := any 80
    minstret := 0#64
    reservation := ⟨Config.resetReservation s.draws, any 81 &&& epcMask⟩
    itlb := []
    dtlb := []
    msip := false
    mtime := 0#64
    mtimecmp := any 82 ++ any 83
    fetchWindow := []
    itlbGhosts := []
    draws := s.draws + 1 }

/-- What one event does. -/
def applyEvent (s : State) : EnvEvent → State
  | .extIrqM level => { s with extIrqM := level }
  | .extIrqS level => { s with extIrqS := level }
  | .tick amount => { s with mtime := s.mtime + BitVec.ofNat 64 amount }
  | .foreignWrite addr bytes => foreignWrite s addr.toNat bytes
  | .softwareIrq level => { s with msip := level }
  | .foreignClintStore addr v => foreignClintStore s addr v
  | .reset => externalReset (discardInFlight s)

/-- The events of one boundary, in order. -/
def applyEvents (s : State) (events : List EnvEvent) : State := events.foldl applyEvent s

/-- Step 1 of the instruction cycle (R12): the environment acts, as the head of `inputs` says. -/
def environment (s : State) : State :=
  match s.inputs with
  | [] => s
  | events :: rest => applyEvents { s with inputs := rest } events

/-- `mcycle` advances by any amount that does not make it decrease (10_state.md R62). -/
def nextCycle (old advance : BitVec 64) : BitVec 64 := if old.ule (old + advance) then old + advance else old

/-- With `HAS_COUNTER_CSRS`, time passes for `mcycle`. -/
def State.passCycles (s : State) : State :=
  if s.config.hasCounterCsrs then
    { s with mcycle := nextCycle s.mcycle (Config.cycleAdvance s.draws), draws := s.draws + 1 }
  else s

/-- The state at the interrupt check of a step: the environment has acted (step 1). -/
def atBoundary (s : State) : State := (environment s).passCycles

end Sys2Proof.Machine
end

