-- ==== Sys2Proof/Machine/Step.lean ====
section
/-! DEFINITION. One step of the machine (00_scope.md R12). -/

namespace Sys2Proof.Machine

/-- One pass of the instruction cycle: the environment acts, then the hart takes an interrupt or runs one
instruction (00_scope.md R12). -/
def step (s : State) : Host.Outcome State Fault Refusal := afterBoundary (atBoundary s)

/-- The state with an instruction, whose low `nbits` bits are those of `w`, where the next fetch reads. -/
def State.withFetchWord (s : State) (nbits w : Nat) : State :=
  placeWord s (fetchAddress s) (BitVec.ofNat 32 (w % 2 ^ nbits))

end Sys2Proof.Machine
end

