-- ==== Sys2Proof/Safety.lean ====
section
/-! DEFINITION. What counts as a legal state and a safe step, and the terms statements about instructions use. -/

namespace Sys2Proof.Machine

/-! ### Legal states -/

/-- `xtvec` holds no reserved MODE (10_state.md R40, R42). -/
abbrev tvecLegal (w : Word) : Prop := w.getLsbD 1 = false

/-- The low two bits are zero (10_state.md R27, R43, R44, R64). -/
abbrev wordAligned (w : Word) : Prop := w.extractLsb' 0 2 = 0#2

/-- No bit outside the mask is set (10_state.md R57). -/
abbrev maskedBy (mask w : Word) : Prop := w &&& ~~~mask = 0#32

/-- `satp` holds what its layout lets a write store (10_state.md R55). -/
abbrev satpLegal (c : Config) (w : Word) : Prop :=
  (c.satpLayout = .riscv → w.getLsbD 30 = false) ∧ (c.satpLayout = .psdText → w.getLsbD 31 = false)

/-- What the fetch path holds expires within the four fetches that can be under way (20_memory.md R160). -/
abbrev fetchPathBounded (s : State) : Prop :=
  (∀ b ∈ s.fetchWindow, 0 < b.fetches ∧ b.fetches ≤ fetchAhead) ∧
    (∀ g ∈ s.itlbGhosts, 0 < g.fetches ∧ g.fetches ≤ fetchAhead)

/-- The CSRs hold only values their write rules can leave in them (10_state.md R34 to R57). -/
structure CsrsLegal (s : State) : Prop where
  mstatus : maskedBy mstatusMask s.mstatus
  mpp : statusMPP s.mstatus ≠ 0b10#2
  mie : maskedBy mieMask s.mie
  mipSoft : maskedBy supervisorMask s.mipSoft
  medeleg : maskedBy medelegMask s.medeleg
  mideleg : maskedBy supervisorMask s.mideleg
  mtvec : tvecLegal s.mtvec
  stvec : tvecLegal s.stvec
  mepc : wordAligned s.mepc
  sepc : wordAligned s.sepc
  satp : satpLegal s.config s.satp

/-- The invariant of the machine: it holds after reset and every step keeps it. -/
structure Legal (s : State) : Prop where
  config : s.config.wf = true
  mem : Memory.wf s.mem
  x0 : s.regs.get 0 = 0#32
  pc : wordAligned s.pc
  csrs : CsrsLegal s
  reservation : wordAligned s.reservation.addr
  itlb : s.itlb.length ≤ s.config.itlbEntries
  dtlb : s.dtlb.length ≤ s.config.dtlbEntries
  fetchPath : fetchPathBounded s

/-- The hart goes on: the step is neither a fault nor a refusal. Every fault of the spec is a trap, so a run of the
spec's own machine is safe (92_eei_decisions.md D39). -/
def goesOn (s : State) : Prop := ∃ t, step s = .next t

/-! ### The terms of statements about one instruction -/

/-- `x[rd]` of `t` is `v` (x0 stays 0), and every other entry of the register file is that of `s`
(10_state.md R21 to R23). -/
def RegisterBecomes (s t : State) (rd : Reg) (v : Word) : Prop :=
  t.x rd = (if rd = 0#5 then 0#32 else v) ∧ ∀ p : Fin 64, p ≠ portOf rd ∨ p = 0 → t.regs.get p = s.regs.get p

/-- Every byte of memory reads as before. -/
def MemorySame (s t : State) : Prop := ∀ a, t.mem.read a = s.mem.read a

/-- The instruction at `s.pc` has retired (10_state.md R62, 60_exceptions.md R474), and the next one is at `next`. -/
def RetiresTo (s t : State) (next : Word) : Prop :=
  t.pc = next ∧ t.minstret = s.minstret + 1#64 ∧ t.pcTrace = s.pc :: s.pcTrace

/-- `i` completes in `s`: it writes `v` to `rd`, goes on to the instruction after it, and changes nothing else: no
other register, no CSR, no memory (40_rv32i_compute.md R220, 43_m_extension.md R290). -/
def Computes (i : Instr) (s : State) (rd : Reg) (v : Word) : Prop :=
  ∃ t, exec i s = .next t ∧ RegisterBecomes s t rd v ∧ RetiresTo s t (s.pc + 4#32) ∧ MemorySame s t ∧
    t = { s with regs := t.regs, pc := t.pc, minstret := t.minstret, pcTrace := t.pcTrace }

/-- `i` completes in `s` by going to `target`, a redirect, and writes `v` to `rd`; nothing else changes
(41_rv32i_control.md R250, 20_memory.md R160). -/
def JumpsAndLinks (i : Instr) (s : State) (rd : Reg) (v target : Word) : Prop :=
  ∃ t, exec i s = .next t ∧ RegisterBecomes s t rd v ∧ RetiresTo s t target ∧ MemorySame s t ∧
    t = { s with regs := t.regs, pc := t.pc, minstret := t.minstret, pcTrace := t.pcTrace,
                 fetchWindow := [], itlbGhosts := [] }

/-- `i` completes in `s` by going to `target`, a redirect; nothing else changes. -/
def JumpsTo (i : Instr) (s : State) (target : Word) : Prop :=
  ∃ t, exec i s = .next t ∧ RetiresTo s t target ∧ MemorySame s t ∧
    t = { s with pc := t.pc, minstret := t.minstret, pcTrace := t.pcTrace, fetchWindow := [], itlbGhosts := [] }

/-- `i` completes in `s` by going to the instruction after it; nothing else changes. -/
def PassesOn (i : Instr) (s : State) : Prop :=
  ∃ t, exec i s = .next t ∧ RetiresTo s t (s.pc + 4#32) ∧ MemorySame s t ∧
    t = { s with pc := t.pc, minstret := t.minstret, pcTrace := t.pcTrace }

/-- `i` completes in `s` by writing the CSRs as `u` holds them and `v` to `rd`; besides, only the retirement changes. -/
def Exchanged (i : Instr) (s u : State) (rd : Reg) (v : Word) : Prop :=
  ∃ t, exec i s = .next t ∧ RegisterBecomes u t rd v ∧ RetiresTo u t (u.pc + 4#32) ∧ MemorySame s t ∧
    t = { u with regs := t.regs, pc := t.pc, minstret := t.minstret, pcTrace := t.pcTrace }

/-- `i` raises the exception of code `code` with trap value `tval` on itself: it writes nothing of its own, and the
trap is entered (60_exceptions.md R430). -/
def Raises (i : Instr) (s : State) (code : Nat) (tval : Word) : Prop :=
  exec i s = .next (takeTrap false code s.pc tval s)

/-! ### The terms of statements about memory -/

/-- An address lies outside the `n` bytes from `base` up. -/
abbrev outside (a base n : Nat) : Prop := a < base ∨ base + n ≤ a

/-- The word that four bytes of memory hold, the lowest address least significant (20_memory.md R100). -/
def wordAt (m : Memory) (a : Nat) : Word := m.read (a + 3) ++ m.read (a + 2) ++ m.read (a + 1) ++ m.read a

/-- The `n` bytes from `base` up become the low bytes of `v`, and every other byte reads as before
(20_memory.md R100). -/
def BytesBecome (s t : State) (base n : Nat) (v : Word) : Prop :=
  (∀ i, i < n → t.mem.read (base + i) = v.extractLsb' (8 * i) 8) ∧
    ∀ a, outside a base n → t.mem.read a = s.mem.read a

/-- The reservation after the hart's own store of `n` bytes at `base`: cleared when the store overlaps the reserved
word and `OWN_STORE_CLEARS_RESERVATION`, else unchanged (44_a_extension.md R316). -/
def reservationAfterStore (s : State) (base n : Nat) : Reservation :=
  if base < s.reservation.addr.toNat + 4 ∧ s.reservation.addr.toNat < base + n ∧
      s.config.ownStoreClearsReservation = true then { s.reservation with valid := false }
  else s.reservation

/-- An access of `n` bytes at `ea` goes to RAM untranslated (20_memory.md R105, R131). -/
abbrev plainRam (s : State) (ea : Word) (n : Nat) : Prop := s.translates = false ∧ inRam s.config ea.toNat n = true

/-- The access of `n` bytes of kind `k` at the address `ea` translates to `pa`, leaves the state `u`, and reaches
memory (20_memory.md R120 to R122). -/
def reaches (s : State) (ea : Word) (n : Nat) (k : AccessKind) (pa : PAddr) (u : State) : Prop :=
  translate s ea k = .done pa u ∧ physTarget u.config pa n k = some .memory

/-- The store instruction `i` completes in `s` by writing the `n` low bytes of `v` at the physical address `base`,
after its translation has left the state `u`; besides, only the fetch window, the reservation and the retirement
change. -/
def Stores (i : Instr) (s u : State) (base n : Nat) (v : Word) : Prop :=
  ∃ t, exec i s = .next t ∧ BytesBecome u t base n v ∧ RetiresTo u t (u.pc + 4#32) ∧
    t.fetchWindow = staleBytes u.mem base n ++ u.fetchWindow ∧ t.reservation = reservationAfterStore u base n ∧
    t = { u with mem := t.mem, fetchWindow := t.fetchWindow, reservation := t.reservation, pc := t.pc,
                 minstret := t.minstret, pcTrace := t.pcTrace }

/-- The atomic `i` completes in `s` by writing the word `v` at the physical address `base` and `old` to `rd`, after its
translation has left the state `u`, and leaves the reservation `r`; besides, only the fetch window and the retirement
change. -/
def Exchanges (i : Instr) (s u : State) (base : Nat) (v : Word) (rd : Reg) (old : Word) (r : Reservation) : Prop :=
  ∃ t, exec i s = .next t ∧ BytesBecome u t base 4 v ∧ RegisterBecomes u t rd old ∧
    RetiresTo u t (u.pc + 4#32) ∧ t.fetchWindow = staleBytes u.mem base 4 ++ u.fetchWindow ∧ t.reservation = r ∧
    t = { u with mem := t.mem, fetchWindow := t.fetchWindow, reservation := t.reservation, regs := t.regs,
                 pc := t.pc, minstret := t.minstret, pcTrace := t.pcTrace }

/-- `i` loads: it completes by writing `v` to `rd` where its access of `n` bytes at `ea` reaches memory at the address
`v` is given (20_memory.md R120). -/
def Loads (i : Instr) (s : State) (rd : Reg) (ea : Word) (n : Nat) (v : Memory → Nat → Word) : Prop :=
  ∀ pa u, reaches s ea n .load pa u → ∃ t, exec i s = .next t ∧ RegisterBecomes u t rd (v u.mem pa.toNat) ∧
    RetiresTo u t (u.pc + 4#32) ∧ MemorySame u t ∧
    t = { u with regs := t.regs, pc := t.pc, minstret := t.minstret, pcTrace := t.pcTrace }

/-- The instructions other than SC.W that store (42_rv32i_loadstore.md R276 to R278, 44_a_extension.md R317). -/
def writesMemory : Instr → Bool
  | .sb .. | .sh .. | .sw .. | .amoswapW .. | .amoaddW .. | .amoxorW .. | .amoandW .. | .amoorW .. | .amominW ..
  | .amomaxW .. | .amominuW .. | .amomaxuW .. => true
  | _ => false

/-- The code of the page fault of an access of kind `k` (60_exceptions.md R413 to R415). -/
def pageFaultCode : AccessKind → Nat
  | .fetch => 12
  | .load => 13
  | .store => 15

/-- The code of the access fault of an access of kind `k` (60_exceptions.md R403, R407, R409). -/
def accessFaultCode : AccessKind → Nat
  | .fetch => 1
  | .load => 5
  | .store => 7

/-- How `i` ends where its access of kind `k`, `n` bytes at `ea`, does not complete: a translation that raises and an
address that `PhysAccessOK` refuses take their exception, of the code of the access's kind, with trap value `ea`
(20_memory.md R107, R138, 60_exceptions.md R407, R409, R414, R415, R425). -/
def FailsAs (i : Instr) (s : State) (ea : Word) (n : Nat) (k : AccessKind) : Prop :=
  (∀ e u, translate s ea k = .raise e u → exec i s = .next (takeTrap false e.code u.pc ea u) ∧
    (e.code = pageFaultCode k ∨ e.code = accessFaultCode k)) ∧
  (∀ pa u, translate s ea k = .done pa u → physAccessOk u.config pa n k = false →
    exec i s = .next (takeTrap false (accessFaultCode k) u.pc ea u))

/-- The address of a CLINT word (60_exceptions.md R459). -/
def clintWordAddress (c : Config) : ClintReg → Nat
  | .msip => c.clintBase.toNat
  | .mtimecmpLow => c.clintBase.toNat + 0x4000
  | .mtimecmpHigh => c.clintBase.toNat + 0x4004
  | .mtimeLow => c.clintBase.toNat + 0xBFF8
  | .mtimeHigh => c.clintBase.toNat + 0xBFFC

/-- What a CLINT word holds (60_exceptions.md R459). -/
def clintWord (s : State) : ClintReg → Word
  | .msip => if s.msip = true then 1#32 else 0#32
  | .mtimecmpLow => BitVec.ofNat 32 s.mtimecmp.toNat
  | .mtimecmpHigh => BitVec.ofNat 32 (s.mtimecmp.toNat / 2 ^ 32)
  | .mtimeLow => BitVec.ofNat 32 s.mtime.toNat
  | .mtimeHigh => BitVec.ofNat 32 (s.mtime.toNat / 2 ^ 32)

/-- The state after a store of `v` to a CLINT word: of `msip` only bit 0 is stored (60_exceptions.md R459 to R461). -/
def clintStored (s : State) (r : ClintReg) (v : Word) : State :=
  match r with
  | .msip => { s with msip := v.getLsbD 0 }
  | .mtimecmpLow => { s with mtimecmp := BitVec.ofNat 64 (s.mtimecmp.toNat / 2 ^ 32 * 2 ^ 32 + v.toNat) }
  | .mtimecmpHigh => { s with mtimecmp := BitVec.ofNat 64 (v.toNat * 2 ^ 32 + s.mtimecmp.toNat % 2 ^ 32) }
  | .mtimeLow => { s with mtime := BitVec.ofNat 64 (s.mtime.toNat / 2 ^ 32 * 2 ^ 32 + v.toNat) }
  | .mtimeHigh => { s with mtime := BitVec.ofNat 64 (v.toNat * 2 ^ 32 + s.mtime.toNat % 2 ^ 32) }

/-- The word access of kind `k` at `ea` translates to `pa`, leaves the state `u`, and is at the CLINT word `r`
(60_exceptions.md R462). -/
def reachesClint (s : State) (ea : Word) (k : AccessKind) (r : ClintReg) (pa : PAddr) (u : State) : Prop :=
  translate s ea k = .done pa u ∧ pa.toNat = clintWordAddress u.config r ∧ pa.toNat < 2 ^ 32 ∧
    inRam u.config pa.toNat 4 = false

/-- `i` completes in `s` by leaving `w`; besides, only the retirement changes. -/
def Leaves (i : Instr) (s w : State) : Prop :=
  ∃ t, exec i s = .next t ∧ RetiresTo w t (w.pc + 4#32) ∧
    t = { w with pc := t.pc, minstret := t.minstret, pcTrace := t.pcTrace }

/-- `i` completes in `s` by leaving `w` and writing `v` to `rd`; besides, only the retirement changes. -/
def LeavesAndWrites (i : Instr) (s w : State) (rd : Reg) (v : Word) : Prop :=
  ∃ t, exec i s = .next t ∧ RegisterBecomes w t rd v ∧ RetiresTo w t (w.pc + 4#32) ∧
    t = { w with regs := t.regs, pc := t.pc, minstret := t.minstret, pcTrace := t.pcTrace }

/-- The AMOs with the word each writes where memory held `old` and `rs2` holds `v` (44_a_extension.md R318 to R326). -/
def amoResults (rd rs1 rs2 : Reg) (aq rl : Bool) (old v : Word) : List (Instr × Word) :=
  [(.amoswapW rd rs1 rs2 aq rl, v), (.amoaddW rd rs1 rs2 aq rl, BitVec.ofNat 32 (old.toNat + v.toNat)),
    (.amoxorW rd rs1 rs2 aq rl, old ^^^ v), (.amoandW rd rs1 rs2 aq rl, old &&& v),
    (.amoorW rd rs1 rs2 aq rl, old ||| v),
    (.amominW rd rs1 rs2 aq rl, BitVec.ofInt 32 (min old.toInt v.toInt)),
    (.amomaxW rd rs1 rs2 aq rl, BitVec.ofInt 32 (max old.toInt v.toInt)),
    (.amominuW rd rs1 rs2 aq rl, BitVec.ofNat 32 (min old.toNat v.toNat)),
    (.amomaxuW rd rs1 rs2 aq rl, BitVec.ofNat 32 (max old.toNat v.toNat))]

/-- The `n` bytes from `a` up lie in a region of the platform. -/
abbrev regionContains (g : Region) (a n : Nat) : Prop := g.base ≤ a ∧ a + n ≤ g.base + g.size

/-- A region of the platform takes accesses of kind `k`. -/
abbrev regionTakes (g : Region) (k : AccessKind) : Prop :=
  (match k with
    | .fetch => g.allowFetch
    | .load => g.allowLoad
    | .store => g.allowStore) = true

/-- `i` is refused where its access of kind `k`, `n` bytes at `ea`, reaches a device whose behaviour the spec does not
give (60_exceptions.md R464). -/
def RefusedAtDevice (i : Instr) (s : State) (ea : Word) (n : Nat) (k : AccessKind) : Prop :=
  ∀ pa u, translate s ea k = .done pa u → physTarget u.config pa n k = some .device →
    exec i s = .refused .platformDevice

/-- The branch `i` goes to `target` when `taken`, and else to the instruction after it (41_rv32i_control.md R250). -/
def BranchesOn (i : Instr) (s : State) (taken : Prop) (target : Word) : Prop :=
  (taken → wordAligned target → JumpsTo i s target) ∧ (¬ taken → PassesOn i s)

/-! ### The terms of statements about translation -/

/-- An entry no access can use (20_memory.md R134, R135 (a), (b)). -/
abbrev entryFaults (pte : Word) : Prop := pte.getLsbD 0 = false ∨ (pte.getLsbD 1 = false ∧ pte.getLsbD 2 = true)

/-- An entry that ends the walk (20_memory.md R133, R134). -/
abbrev entryEnds (pte : Word) : Prop := pte.getLsbD 1 = true ∨ pte.getLsbD 3 = true

/-- The checks (a) to (g) of 20_memory.md R135 for an access of kind `k` from mode `p`. -/
abbrev leafPermits (p : Priv) (mstatus : Word) (k : AccessKind) (pte : Word) (l : Level) : Prop :=
  pte.getLsbD 0 = true ∧ ¬ (pte.getLsbD 2 = true ∧ pte.getLsbD 1 = false) ∧
    (l = .megapage → pte.extractLsb' 10 10 = 0#10) ∧
    (k = .fetch → pte.getLsbD 3 = true) ∧
    (k = .load → pte.getLsbD 1 = true ∨ (pte.getLsbD 3 = true ∧ mstatus.getLsbD 19 = true)) ∧
    (k = .store → pte.getLsbD 2 = true) ∧
    (p = .U → pte.getLsbD 4 = true) ∧
    (p = .S → pte.getLsbD 4 = true → k ≠ .fetch ∧ mstatus.getLsbD 18 = true)

/-- The access must set A, or D as well for a store (20_memory.md R136). -/
abbrev entryNeedsUpdate (k : AccessKind) (pte : Word) : Prop :=
  pte.getLsbD 6 = false ∨ (k = .store ∧ pte.getLsbD 7 = false)

/-- Only the cached translations and the draw counter differ. -/
def CacheTrace (s u : State) : Prop := u = { s with itlb := u.itlb, dtlb := u.dtlb, draws := u.draws }

/-- What a translation of `va` for an access of kind `k` may leave in the state: cached translations and draws, and,
where the walk ends in a leaf that permits the access and lacks A or D, that entry written back with them set; nothing
else (60_exceptions.md R400, 20_memory.md R136, R140). -/
def TranslationTrace (s : State) (va : Word) (k : AccessKind) (u : State) : Prop :=
  CacheTrace s u ∨ ∃ pte a l g w, walk s va = .leaf pte a l ∧ leafPermits s.priv s.mstatus k pte l ∧
    entryNeedsUpdate k pte ∧ physTarget s.config a 4 .store = some g ∧
    physWrite s g a .word (pte ||| (if k = .store then 0xC0#32 else 0x40#32)) = some w ∧ CacheTrace w u

/-! ### The terms of statements about CSR addresses -/

/-- The CSRs of the table of 10_state.md R32, by the numbers of their addresses. -/
def tableCsrs : List (Nat × Csr) :=
  [(0x100, .sstatus), (0x104, .sie), (0x105, .stvec), (0x140, .sscratch), (0x141, .sepc), (0x142, .scause),
    (0x143, .stval), (0x144, .sip), (0x180, .satp), (0x300, .mstatus), (0x301, .misa), (0x302, .medeleg),
    (0x303, .mideleg), (0x304, .mie), (0x305, .mtvec), (0x340, .mscratch), (0x341, .mepc), (0x342, .mcause),
    (0x343, .mtval), (0x344, .mip), (0xF11, .mvendorid), (0xF12, .marchid), (0xF13, .mimpid), (0xF14, .mhartid)]

/-- The machine counters and the counter enables of 10_state.md R62. -/
def counterCsrs : List (Nat × Csr) :=
  [(0xB00, .mcycle), (0xB02, .minstret), (0xB80, .mcycleh), (0xB82, .minstreth), (0x306, .mcounteren),
    (0x106, .scounteren)]

/-- The hardware performance counters, their upper halves and their events (10_state.md R62). -/
abbrev isHpmAddress (a : Nat) : Prop :=
  (0xB03 ≤ a ∧ a ≤ 0xB1F) ∨ (0xB83 ≤ a ∧ a ≤ 0xB9F) ∨ (0x323 ≤ a ∧ a ≤ 0x33F)

/-- The other addresses of 10_state.md R62, which stay unimplemented with `HAS_COUNTER_CSRS`. -/
abbrev isUnnamedAddress (a : Nat) : Prop :=
  a ∈ [0x320, 0x310, 0x30A, 0x31A, 0x10A, 0xF15, 0x747] ∨ (0xC00 ≤ a ∧ a ≤ 0xC1F) ∨ (0xC80 ≤ a ∧ a ≤ 0xC9F) ∨
    (0x3A0 ≤ a ∧ a ≤ 0x3A3) ∨ (0x3B0 ≤ a ∧ a ≤ 0x3BF) ∨ (0x7A0 ≤ a ∧ a ≤ 0x7A3) ∨ (0x7B0 ≤ a ∧ a ≤ 0x7B3)

/-- `t` differs from `s` at most in the field that holds the CSR `c`; the fixed CSRs and the counters have none. -/
def OnlyCsrChanges (c : Csr) (s t : State) : Prop :=
  t = match c with
    | .sstatus | .mstatus => { s with mstatus := t.mstatus }
    | .sie | .mie => { s with mie := t.mie }
    | .sip | .mip => { s with mipSoft := t.mipSoft }
    | .mtvec => { s with mtvec := t.mtvec }
    | .stvec => { s with stvec := t.stvec }
    | .mepc => { s with mepc := t.mepc }
    | .sepc => { s with sepc := t.sepc }
    | .mcause => { s with mcause := t.mcause }
    | .scause => { s with scause := t.scause }
    | .mtval => { s with mtval := t.mtval }
    | .stval => { s with stval := t.stval }
    | .medeleg => { s with medeleg := t.medeleg }
    | .mideleg => { s with mideleg := t.mideleg }
    | .mscratch => { s with mscratch := t.mscratch }
    | .sscratch => { s with sscratch := t.sscratch }
    | .satp => { s with satp := t.satp }
    | .mcounteren => { s with mcounteren := t.mcounteren }
    | .scounteren => { s with scounteren := t.scounteren }
    | .misa | .mvendorid | .marchid | .mimpid | .mhartid | .mcycle | .mcycleh | .minstret | .minstreth | .hpmZero => s

/-! ### The terms of statements about traps -/

/-- The address and the kind of the explicit access of an instruction that makes one (42_rv32i_loadstore.md R270,
44_a_extension.md R311). -/
def accessOf (s : State) : Instr → Option (Word × AccessKind)
  | .lb _ rs1 imm | .lh _ rs1 imm | .lw _ rs1 imm | .lbu _ rs1 imm | .lhu _ rs1 imm =>
    some (BitVec.ofInt 32 ((s.x rs1).toInt + imm.toInt), .load)
  | .sb rs1 _ imm | .sh rs1 _ imm | .sw rs1 _ imm =>
    some (BitVec.ofInt 32 ((s.x rs1).toInt + imm.toInt), .store)
  | .lrW _ rs1 _ _ => some (s.x rs1, .load)
  | .scW _ rs1 _ _ _ | .amoswapW _ rs1 _ _ _ | .amoaddW _ rs1 _ _ _ | .amoxorW _ rs1 _ _ _ | .amoandW _ rs1 _ _ _
  | .amoorW _ rs1 _ _ _ | .amominW _ rs1 _ _ _ | .amomaxW _ rs1 _ _ _ | .amominuW _ rs1 _ _ _
  | .amomaxuW _ rs1 _ _ _ => some (s.x rs1, .store)
  | _ => none

/-- `i` ends in the entry of an exception in `s`, and besides that entry nothing has changed, or only what the
translation of `i`'s own access leaves: nothing but cached translations if it raised, and else at most the page-table
entry it set A or D in (60_exceptions.md R400). -/
def TrapsOnly (i : Instr) (s t : State) : Prop :=
  ∃ code tval u, t = takeTrap false code s.pc tval u ∧ (u = s ∨ ∃ ea k, accessOf s i = some (ea, k) ∧
    ((∃ e, translate s ea k = .raise e u ∧ CacheTrace s u) ∨
      (∃ pa, translate s ea k = .done pa u ∧ TranslationTrace s ea k u)))

/-- The place of a source within one target mode, the first taken first: MEI, MTI, MSI, SEI, STI, SSI
(60_exceptions.md R444). -/
def interruptPlace : Interrupt → Nat
  | .mei => 0
  | .mti => 1
  | .msi => 2
  | .sei => 3
  | .sti => 4
  | .ssi => 5

/-- The privilege mode and every stored CSR of `t` but the two counters hold what they hold in `s`. -/
def PrivilegedSame (s t : State) : Prop :=
  t.priv = s.priv ∧ t.mstatus = s.mstatus ∧ t.mie = s.mie ∧ t.mipSoft = s.mipSoft ∧ t.mtvec = s.mtvec ∧
    t.stvec = s.stvec ∧ t.mepc = s.mepc ∧ t.sepc = s.sepc ∧ t.mcause = s.mcause ∧ t.scause = s.scause ∧
    t.mtval = s.mtval ∧ t.stval = s.stval ∧ t.medeleg = s.medeleg ∧ t.mideleg = s.mideleg ∧
    t.mscratch = s.mscratch ∧ t.sscratch = s.sscratch ∧ t.satp = s.satp ∧ t.mcounteren = s.mcounteren ∧
    t.scounteren = s.scounteren

end Sys2Proof.Machine
end

