-- ==== Sys2Proof/Certificates/Slice0/Obligations.lean ====
section
/-! DEFINITION. The statements for the provers: what the numbered rules of spec/ say the machine does. Each docstring
names the rules; the terms are defined in Sys2Proof/Safety.lean. -/

section

open Sys2Proof Sys2Proof.Machine

/-! ### Encoding (30_encoding.md) -/

/-- Decoding the word of any well-formed instruction gives that instruction back (R181 to R193). -/
def Obligations.DecodeOfEncodeReturnsInstruction : Prop :=
  ∀ i : Instr, i.wellFormed = true → decodeWord (encode i) = some i

/-- A word that decodes at all is the encoding of the well-formed instruction it decodes to: no bit is dropped
(R181 to R193). -/
def Obligations.EncodeOfDecodeReturnsWord : Prop :=
  ∀ (w : Word) (i : Instr), decodeWord w = some i → i.wellFormed = true ∧ encode i = w

/-- A word is the instruction of the one row it matches; no word matches two rows; a word of no row decodes to nothing
and is illegal when executed (R193). -/
def Obligations.EveryWordMatchesAtMostOneRow : Prop :=
  ∀ w : Word,
    (∀ r ∈ opcodeTable, w &&& r.mask = r.pat → decodeWord w = some (r.build w)) ∧
    (∀ (j k : Nat) (r q : OpcodeRow), opcodeTable[j]? = some r → opcodeTable[k]? = some q →
      w &&& r.mask = r.pat → w &&& q.mask = q.pat → j = k) ∧
    ((∀ r ∈ opcodeTable, w &&& r.mask ≠ r.pat) → decodeWord w = none ∧
      ∀ s, executeWord w s = .next (raiseIllegal w s))

/-- Words written out in the spec's examples decode to the instructions they stand for, one of each family at least
(R223, R239, R253, R256, R272, R277, R297, R312, R319, R342, R346, R364, R366). -/
def Obligations.WordsOfTheExamplesDecode : Prop :=
  decodeWord 0xFFF30293#32 = some (.addi 5#5 6#5 0xFFF#12) ∧
  decodeWord 0x407352B3#32 = some (.sra 5#5 6#5 7#5) ∧
  decodeWord 0x003282E7#32 = some (.jalr 5#5 5#5 3#12) ∧
  decodeWord 0x7E62CFE3#32 = some (.blt 5#5 6#5 4094#13) ∧
  decodeWord 0x00251283#32 = some (.lh 5#5 10#5 2#12) ∧
  decodeWord 0x00651123#32 = some (.sh 10#5 6#5 2#12) ∧
  decodeWord 0x027362B3#32 = some (.rem 5#5 6#5 7#5) ∧
  decodeWord 0x140522AF#32 = some (.lrW 5#5 10#5 true false) ∧
  decodeWord 0x066522AF#32 = some (.amoaddW 5#5 10#5 6#5 true true) ∧
  decodeWord 0x340292F3#32 = some (.csrrw 5#5 0x340#12 5#5) ∧
  decodeWord 0x30046073#32 = some (.csrrsi 0#5 0x300#12 8#5) ∧
  decodeWord 0x30200073#32 = some .mret ∧
  decodeWord 0x12B50073#32 = some (.sfenceVma 10#5 11#5) ∧
  decodeWord 0x0000100F#32 = none

/-- The five immediates as numbers of the word's bits, with their ranges (R183 to R187). -/
def Obligations.ImmediatesAreTheWordsBits : Prop :=
  ∀ w : Word,
    ((immI (immIOf w)).toInt = w.toInt / 2 ^ 20 ∧
      -2048 ≤ (immI (immIOf w)).toInt ∧ (immI (immIOf w)).toInt ≤ 2047) ∧
    ((immS (immSOf w)).toInt = w.toInt / 2 ^ 25 * 32 + (w.toNat / 2 ^ 7 % 32 : Nat) ∧
      -2048 ≤ (immS (immSOf w)).toInt ∧ (immS (immSOf w)).toInt ≤ 2047) ∧
    ((immB (offsetBOf w)).toInt = w.toInt / 2 ^ 31 * 4096 +
        (w.toNat / 2 ^ 7 % 2 * 2048 + w.toNat / 2 ^ 25 % 64 * 32 + w.toNat / 2 ^ 8 % 16 * 2 : Nat) ∧
      (immB (offsetBOf w)).toInt % 2 = 0 ∧
      -4096 ≤ (immB (offsetBOf w)).toInt ∧ (immB (offsetBOf w)).toInt ≤ 4094) ∧
    ((immU (immUOf w)).toNat = w.toNat / 2 ^ 12 * 2 ^ 12 ∧ (immU (immUOf w)).toNat % 2 ^ 12 = 0) ∧
    ((immJ (offsetJOf w)).toInt = w.toInt / 2 ^ 31 * 2 ^ 20 +
        (w.toNat / 2 ^ 12 % 256 * 2 ^ 12 + w.toNat / 2 ^ 20 % 2 * 2 ^ 11 + w.toNat / 2 ^ 21 % 1024 * 2 : Nat) ∧
      (immJ (offsetJOf w)).toInt % 2 = 0 ∧
      -1048576 ≤ (immJ (offsetJOf w)).toInt ∧ (immJ (offsetJOf w)).toInt ≤ 1048574)

/-- A word that matches no row raises the illegal-instruction exception, in every mode, and nothing else happens: the
trap is entered with the word as trap value, or 0 without `TVAL_ILLEGAL_IS_INSTR` (R194, 60_exceptions.md R425). -/
def Obligations.WordsOfNoRowAreIllegal : Prop :=
  ∀ (w : Word) (s : State), (∀ r ∈ opcodeTable, w &&& r.mask ≠ r.pat) →
    executeWord w s =
      .next (takeTrap false 2 s.pc (if s.config.tvalIllegalIsInstr = true then w else 0#32) s)

/-! ### The instruction cycle (00_scope.md R12) -/

/-- One step: after the environment has acted, a takeable interrupt is taken with the pc of the instruction it
precedes; otherwise the word the fetch sees is executed: the instruction it decodes to, in the state the fetch leaves,
or the illegal-instruction exception (00_scope.md R12, 60_exceptions.md R445, R446). -/
def Obligations.StepRunsTheDecodedInstruction : Prop :=
  ∀ s : State,
    (∀ j, (atBoundary s).pendingInterrupt = some j →
      step s = .next (takeTrap true j.code (atBoundary s).pc 0#32 (atBoundary s))) ∧
    ((atBoundary s).pendingInterrupt = none → ∀ (w : Word) (u : State), fetch (atBoundary s) = .done w u →
      (∀ i, decodeWord w = some i → step s = exec i u) ∧
      (decodeWord w = none → step s = .next (raiseIllegal w u)))

/-- When fetches are untranslated, the pc is in RAM and no recent store is still pending for the fetch path, the fetch
reads the little-endian word at the pc, and the step runs the instruction of that word in the same state, but for the
flushed instruction translations that coming fetches may still use, which age by one fetch (20_memory.md R102, R119,
R131). -/
def Obligations.BytesAtThePcAreRun : Prop :=
  ∀ (s b : State) (i : Instr), b = atBoundary s → b.pendingInterrupt = none → plainRam b b.pc 4 →
    b.fetchWindow = [] → i.wellFormed = true → decodeWord (wordAt b.mem b.pc.toNat) = some i →
    step s = exec i { b with itlbGhosts := b.ageFetch.itlbGhosts } ∧
      (b.itlbGhosts = [] → step s = exec i b)

/-- A fetch that fails takes code 1 or 12 with the pc as trap value, and has changed nothing but what its translation
leaves; code 12 only when translation is active; and an untranslated fetch fails exactly where `PhysAccessOK` is false
for it, and then with code 1 and nothing changed (60_exceptions.md R403, R413, 20_memory.md R119). -/
def Obligations.FailedFetchesTrap : Prop :=
  ∀ (s b : State), b = atBoundary s → b.pendingInterrupt = none →
    (∀ e u, fetch b = .raise e u → step s = .next (takeTrap false e.code b.pc b.pc u) ∧
      ((translate b b.pc .fetch = .raise e u ∧ CacheTrace b u ∧ b.translates = true ∧ (e.code = 1 ∨ e.code = 12)) ∨
        (∃ pa, translate b b.pc .fetch = .done pa u ∧ TranslationTrace b b.pc .fetch u ∧
          physAccessOk u.config pa 4 .fetch = false ∧ e.code = 1))) ∧
    (b.translates = false → physAccessOk b.config (b.pc.setWidth 34) 4 .fetch = false →
      step s = .next (takeTrap false 1 b.pc b.pc b)) ∧
    (b.translates = false → physAccessOk b.config (b.pc.setWidth 34) 4 .fetch = true →
      ∀ e u, fetch b ≠ .raise e u)

/-! ### The invariant, and reset -/

/-- The state after reset is legal. -/
def Obligations.ResetStateIsLegal : Prop := Legal State.reset

/-- Every step keeps a legal state legal: memory canonical, x0 zero, the pc aligned, every CSR a value its write rule
can leave (10_state.md R22, R27, R34 to R57, R64, R65). -/
def Obligations.LegalIsKeptByEveryStep : Prop := ∀ s t : State, Legal s → step s = .next t → Legal t

/-- After reset: pc is RESET_VECTOR, M-mode, x0 is 0, mstatus 0, translation off, misa and the id registers their fixed
values, the TLBs empty, msip 0 and mtime 0 (10_state.md R69, 70_reset_and_hazards.md R480, R483). -/
def Obligations.ResetLeavesTheSpecsValues : Prop :=
  State.reset.pc = State.reset.config.resetVector ∧ State.reset.priv = .M ∧ State.reset.x 0#5 = 0#32 ∧
  State.reset.mstatus = 0#32 ∧ sv32Selected State.reset.config State.reset.satp = false ∧
  State.reset.readCsr .misa = 0x40141101#32 ∧ State.reset.readCsr .mvendorid = 0#32 ∧
  State.reset.readCsr .marchid = 0#32 ∧ State.reset.readCsr .mimpid = 0#32 ∧ State.reset.readCsr .mhartid = 0#32 ∧
  State.reset.itlb = [] ∧ State.reset.dtlb = [] ∧ State.reset.msip = false ∧ State.reset.mtime = 0#64

/-- The reset input does the same from every state, touches no interrupt line, and leaves legal CSRs; the instruction in
flight is discarded and does not retire, and memory keeps every byte but that each byte it was storing may be the new
one; after a reset no interrupt can be taken, whatever the unspecified registers hold (R480 to R483, U19). -/
def Obligations.ExternalResetLeavesTheSpecsValues : Prop :=
  ∀ s t : State, t = applyEvent s .reset →
    t.pc = s.config.resetVector ∧ t.priv = .M ∧ t.regs.get 0 = 0#32 ∧ t.mstatus = 0#32 ∧
    sv32Selected t.config t.satp = false ∧ t.itlb = [] ∧ t.dtlb = [] ∧ t.msip = false ∧ t.mtime = 0#64 ∧
    t.pcTrace = s.pcTrace ∧
    (Memory.wf s.mem → ∀ a, t.mem.read a = s.mem.read a ∨
      ∃ u, afterBoundary s = .next u ∧ t.mem.read a = u.mem.read a) ∧
    t.extIrqM = s.extIrqM ∧ t.extIrqS = s.extIrqS ∧ t.config = s.config ∧ CsrsLegal t ∧
    t.pendingInterrupt = none

/-! ### Integer computation (40_rv32i_compute.md, 43_m_extension.md) -/

/-- The instructions with an immediate: the value each writes, and that it changes nothing else (R220 to R231). -/
def Obligations.ImmediateInstructionsCompute : Prop :=
  ∀ (s : State) (rd rs1 : Reg) (imm20 : BitVec 20) (imm : BitVec 12) (shamt : BitVec 5),
    Computes (.lui rd imm20) s rd (BitVec.ofNat 32 (imm20.toNat * 2 ^ 12)) ∧
    Computes (.auipc rd imm20) s rd (BitVec.ofNat 32 (s.pc.toNat + imm20.toNat * 2 ^ 12)) ∧
    Computes (.addi rd rs1 imm) s rd (BitVec.ofInt 32 ((s.x rs1).toInt + imm.toInt)) ∧
    Computes (.slti rd rs1 imm) s rd (if (s.x rs1).toInt < imm.toInt then 1#32 else 0#32) ∧
    Computes (.sltiu rd rs1 imm) s rd
      (if (s.x rs1).toNat < (BitVec.ofInt 32 imm.toInt).toNat then 1#32 else 0#32) ∧
    Computes (.xori rd rs1 imm) s rd (s.x rs1 ^^^ BitVec.ofInt 32 imm.toInt) ∧
    Computes (.ori rd rs1 imm) s rd (s.x rs1 ||| BitVec.ofInt 32 imm.toInt) ∧
    Computes (.andi rd rs1 imm) s rd (s.x rs1 &&& BitVec.ofInt 32 imm.toInt) ∧
    Computes (.slli rd rs1 shamt) s rd (BitVec.ofNat 32 ((s.x rs1).toNat * 2 ^ shamt.toNat)) ∧
    Computes (.srli rd rs1 shamt) s rd (BitVec.ofNat 32 ((s.x rs1).toNat / 2 ^ shamt.toNat)) ∧
    Computes (.srai rd rs1 shamt) s rd (BitVec.ofInt 32 ((s.x rs1).toInt / 2 ^ shamt.toNat))

/-- The register-register instructions: the value each writes, and that it changes nothing else; shifts take the low
five bits of `rs2` (R220, R232 to R242). -/
def Obligations.RegisterInstructionsCompute : Prop :=
  ∀ (s : State) (rd rs1 rs2 : Reg) (a b : Word), a = s.x rs1 → b = s.x rs2 →
    Computes (.add rd rs1 rs2) s rd (BitVec.ofNat 32 (a.toNat + b.toNat)) ∧
    Computes (.sub rd rs1 rs2) s rd (BitVec.ofInt 32 (a.toInt - b.toInt)) ∧
    Computes (.sll rd rs1 rs2) s rd (BitVec.ofNat 32 (a.toNat * 2 ^ (b.toNat % 32))) ∧
    Computes (.slt rd rs1 rs2) s rd (if a.toInt < b.toInt then 1#32 else 0#32) ∧
    Computes (.sltu rd rs1 rs2) s rd (if a.toNat < b.toNat then 1#32 else 0#32) ∧
    Computes (.xor rd rs1 rs2) s rd (a ^^^ b) ∧
    Computes (.srl rd rs1 rs2) s rd (BitVec.ofNat 32 (a.toNat / 2 ^ (b.toNat % 32))) ∧
    Computes (.sra rd rs1 rs2) s rd (BitVec.ofInt 32 (a.toInt / 2 ^ (b.toNat % 32))) ∧
    Computes (.or rd rs1 rs2) s rd (a ||| b) ∧
    Computes (.and rd rs1 rs2) s rd (a &&& b)

/-- The multiplications return the low or high half of the exact product, each operand signed or unsigned as its rule
says, and change nothing else (R290 to R294). -/
def Obligations.MultiplicationsReturnTheirHalf : Prop :=
  ∀ (s : State) (rd rs1 rs2 : Reg) (a b : Word), a = s.x rs1 → b = s.x rs2 →
    Computes (.mul rd rs1 rs2) s rd (BitVec.ofInt 32 (a.toInt * b.toInt)) ∧
    Computes (.mulh rd rs1 rs2) s rd (BitVec.ofInt 32 (a.toInt * b.toInt / 2 ^ 32)) ∧
    Computes (.mulhsu rd rs1 rs2) s rd (BitVec.ofInt 32 (a.toInt * b.toNat / 2 ^ 32)) ∧
    Computes (.mulhu rd rs1 rs2) s rd (BitVec.ofNat 32 (a.toNat * b.toNat / 2 ^ 32))

/-- Division and remainder: the two special rows of the table, and for every other pair the exact identity with a
remainder smaller than the divisor (signed: of the dividend's sign); in the special rows the identity holds modulo
2^32; nothing else changes (R295 to R299). -/
def Obligations.DivisionsFollowTheTable : Prop :=
  ∀ (s : State) (rd rs1 rs2 : Reg) (a b : Word), a = s.x rs1 → b = s.x rs2 → ∃ q r qu ru : Word,
    Computes (.div rd rs1 rs2) s rd q ∧ Computes (.rem rd rs1 rs2) s rd r ∧
    Computes (.divu rd rs1 rs2) s rd qu ∧ Computes (.remu rd rs1 rs2) s rd ru ∧
    (b = 0#32 → q = 0xFFFFFFFF#32 ∧ r = a ∧ qu = 0xFFFFFFFF#32 ∧ ru = a) ∧
    (a = 0x80000000#32 → b = 0xFFFFFFFF#32 → q = 0x80000000#32 ∧ r = 0#32 ∧ qu = 0#32 ∧ ru = 0x80000000#32) ∧
    (b ≠ 0#32 → ¬ (a = 0x80000000#32 ∧ b = 0xFFFFFFFF#32) →
      a.toInt = b.toInt * q.toInt + r.toInt ∧ r.toInt.natAbs < b.toInt.natAbs ∧
        (r.toInt = 0 ∨ (r.toInt < 0 ↔ a.toInt < 0))) ∧
    (b ≠ 0#32 → a.toNat = b.toNat * qu.toNat + ru.toNat ∧ ru.toNat < b.toNat) ∧
    a = b * q + r ∧ a = b * qu + ru

/-! ### Control transfer (41_rv32i_control.md) -/

/-- JAL and JALR go to their aligned target, write the link value, and change nothing else; JALR clears bit 0 and reads
`rs1` before writing `rd` (R250, R252, R253). -/
def Obligations.JumpsLinkAndRedirect : Prop :=
  ∀ (s : State) (rd rs1 : Reg) (offset : BitVec 21) (imm : BitVec 12) (t : Word), wordAligned t →
    (t = BitVec.ofInt 32 (s.pc.toInt + offset.toInt) → JumpsAndLinks (.jal rd offset) s rd (s.pc + 4#32) t) ∧
    (t = BitVec.ofNat 32 ((BitVec.ofInt 32 ((s.x rs1).toInt + imm.toInt)).toNat / 2 * 2) →
      JumpsAndLinks (.jalr rd rs1 imm) s rd (s.pc + 4#32) t)

/-- Each branch goes to its target exactly when its condition holds, else to the next instruction, and writes no
register (R250, R254 to R259). -/
def Obligations.BranchesFollowTheirCondition : Prop :=
  ∀ (s : State) (rs1 rs2 : Reg) (offset : BitVec 13) (a b t : Word), a = s.x rs1 → b = s.x rs2 →
    t = BitVec.ofInt 32 (s.pc.toInt + offset.toInt) →
    BranchesOn (.beq rs1 rs2 offset) s (a = b) t ∧
    BranchesOn (.bne rs1 rs2 offset) s (a ≠ b) t ∧
    BranchesOn (.blt rs1 rs2 offset) s (a.toInt < b.toInt) t ∧
    BranchesOn (.bge rs1 rs2 offset) s (b.toInt ≤ a.toInt) t ∧
    BranchesOn (.bltu rs1 rs2 offset) s (a.toNat < b.toNat) t ∧
    BranchesOn (.bgeu rs1 rs2 offset) s (b.toNat ≤ a.toNat) t

/-- A jump or a taken branch to a misaligned target raises code 0 on itself, with the target as trap value, and writes
nothing; a branch that is not taken never does (R251, 60_exceptions.md R402). -/
def Obligations.MisalignedTargetsRaise : Prop :=
  ∀ (s : State) (rd rs1 rs2 : Reg) (offsetJ : BitVec 21) (imm : BitVec 12) (offset : BitVec 13) (a b tj tr t : Word),
    a = s.x rs1 → b = s.x rs2 → tj = BitVec.ofInt 32 (s.pc.toInt + offsetJ.toInt) →
    tr = BitVec.ofNat 32 ((BitVec.ofInt 32 ((s.x rs1).toInt + imm.toInt)).toNat / 2 * 2) →
    t = BitVec.ofInt 32 (s.pc.toInt + offset.toInt) →
    (¬ wordAligned tj → Raises (.jal rd offsetJ) s 0 tj) ∧
    (¬ wordAligned tr → Raises (.jalr rd rs1 imm) s 0 tr) ∧
    (¬ wordAligned t →
      (a = b → Raises (.beq rs1 rs2 offset) s 0 t) ∧ (a ≠ b → Raises (.bne rs1 rs2 offset) s 0 t) ∧
      (a.toInt < b.toInt → Raises (.blt rs1 rs2 offset) s 0 t) ∧
      (b.toInt ≤ a.toInt → Raises (.bge rs1 rs2 offset) s 0 t) ∧
      (a.toNat < b.toNat → Raises (.bltu rs1 rs2 offset) s 0 t) ∧
      (b.toNat ≤ a.toNat → Raises (.bgeu rs1 rs2 offset) s 0 t)) ∧
    (a ≠ b → PassesOn (.beq rs1 rs2 offset) s) ∧ (a = b → PassesOn (.bne rs1 rs2 offset) s) ∧
    (b.toInt ≤ a.toInt → PassesOn (.blt rs1 rs2 offset) s) ∧
    (a.toInt < b.toInt → PassesOn (.bge rs1 rs2 offset) s) ∧
    (b.toNat ≤ a.toNat → PassesOn (.bltu rs1 rs2 offset) s) ∧
    (a.toNat < b.toNat → PassesOn (.bgeu rs1 rs2 offset) s) ∧
    (s.pc.toNat % 4 = 0 → offsetJ.toNat % 2 = 0 → offset.toNat % 2 = 0 →
      tj.toNat % 2 = 0 ∧ tr.toNat % 2 = 0 ∧ t.toNat % 2 = 0)

/-! ### Loads, stores, FENCE (42_rv32i_loadstore.md) and the address map (20_memory.md) -/

/-- What `PhysAccessOK` answers: never beyond 32 bits; always for RAM; for the CLINT words a load or store of a word and
no fetch; elsewhere what the first region of the platform that holds the whole access permits, and nothing where none
does. An untranslated access to RAM reaches the memory at its own address (20_memory.md R105 to R107, R131,
60_exceptions.md R459, R462). That RAM comes before the CLINT and the CLINT before the regions, and the form of a region,
are the model's choice (log 21). -/
def Obligations.AccessesFollowTheAddressMap : Prop :=
  (∀ (c : Config) (pa : PAddr) (n : Nat) (k : AccessKind), 0 < n →
    (2 ^ 32 ≤ pa.toNat → physAccessOk c pa n k = false) ∧
    (c.wf = true → ramBase ≤ pa.toNat → pa.toNat + n ≤ ramBase + c.ramSize →
      physTarget c pa n k = some .memory) ∧
    (pa.toNat < 2 ^ 32 → inRam c pa.toNat n = false →
      (∀ r, n = 4 → pa.toNat = clintWordAddress c r →
        physTarget c pa n .load = some (.clint r) ∧ physTarget c pa n .store = some (.clint r) ∧
          physAccessOk c pa n .fetch = false) ∧
      ((∀ r, n = 4 → pa.toNat ≠ clintWordAddress c r) →
        (∀ (before after : List Region) (g : Region), c.regions = before ++ g :: after →
          (∀ q ∈ before, ¬ regionContains q pa.toNat n) → regionContains g pa.toNat n →
          (regionTakes g k → physTarget c pa n k =
            some (match g.kind with
              | .memory => .memory
              | .device => .device)) ∧
          (¬ regionTakes g k → physAccessOk c pa n k = false)) ∧
        ((∀ q ∈ c.regions, ¬ regionContains q pa.toNat n) → physAccessOk c pa n k = false)))) ∧
  (∀ (s : State) (ea : Word) (n : Nat) (k : AccessKind), plainRam s ea n → 0 < n →
    reaches s ea n k (ea.setWidth 34) s ∧ (ea.setWidth 34 : PAddr).toNat = ea.toNat)

/-- Each load returns the bytes its access reaches, least significant first, extended as its rule says, and changes
nothing else (R270 to R275, R279, R280, 20_memory.md R100, R120). -/
def Obligations.LoadsReturnTheBytesTheyReach : Prop :=
  ∀ (s : State) (rd rs1 : Reg) (imm : BitVec 12) (ea : Word),
    ea = BitVec.ofInt 32 ((s.x rs1).toInt + imm.toInt) →
    Loads (.lb rd rs1 imm) s rd ea 1 (fun m a => (m.read a).signExtend 32) ∧
    Loads (.lbu rd rs1 imm) s rd ea 1 (fun m a => (m.read a).setWidth 32) ∧
    (ea.toNat % 2 = 0 →
      Loads (.lh rd rs1 imm) s rd ea 2 (fun m a => (m.read (a + 1) ++ m.read a).signExtend 32) ∧
      Loads (.lhu rd rs1 imm) s rd ea 2 (fun m a => (m.read (a + 1) ++ m.read a).setWidth 32)) ∧
    (ea.toNat % 4 = 0 → Loads (.lw rd rs1 imm) s rd ea 4 wordAt)

/-- Each store writes the low bytes of `rs2` where its access reaches memory, least significant first, and no other
byte; a store that overlaps the reserved word clears the reservation when `OWN_STORE_CLEARS_RESERVATION`
(R270, R276 to R279, 20_memory.md R100, R121, 44_a_extension.md R316). -/
def Obligations.StoresWriteTheBytesTheyReach : Prop :=
  ∀ (s u : State) (rs1 rs2 : Reg) (imm : BitVec 12) (ea : Word) (pa : PAddr),
    ea = BitVec.ofInt 32 ((s.x rs1).toInt + imm.toInt) → Memory.wf s.mem →
    (reaches s ea 1 .store pa u → Stores (.sb rs1 rs2 imm) s u pa.toNat 1 (s.x rs2)) ∧
    (ea.toNat % 2 = 0 → reaches s ea 2 .store pa u → Stores (.sh rs1 rs2 imm) s u pa.toNat 2 (s.x rs2)) ∧
    (ea.toNat % 4 = 0 → reaches s ea 4 .store pa u → Stores (.sw rs1 rs2 imm) s u pa.toNat 4 (s.x rs2))

/-- After SW of a word to RAM, narrower loads from it return its parts, and LW the whole (20_memory.md R101, R150). -/
def Obligations.LoadsAfterAStoreReturnItsParts : Prop :=
  ∀ (s : State) (rs1 rs2 : Reg) (imm : BitVec 12) (ea : Word),
    ea = BitVec.ofInt 32 ((s.x rs1).toInt + imm.toInt) → ea.toNat % 4 = 0 → plainRam s ea 4 → Memory.wf s.mem →
    ∃ t, exec (.sw rs1 rs2 imm) s = .next t ∧ ∀ (rd rb : Reg) (j : BitVec 12) (k : Nat), rd ≠ 0#5 → k < 4 →
      BitVec.ofInt 32 ((t.x rb).toInt + j.toInt) = ea + BitVec.ofNat 32 k →
      (∃ u, exec (.lbu rd rb j) t = .next u ∧ (u.x rd).toNat = (s.x rs2).toNat / 2 ^ (8 * k) % 2 ^ 8) ∧
      (k % 2 = 0 → ∃ u, exec (.lhu rd rb j) t = .next u ∧
        (u.x rd).toNat = (s.x rs2).toNat / 2 ^ (8 * k) % 2 ^ 16) ∧
      (k = 0 → ∃ u, exec (.lw rd rb j) t = .next u ∧ u.x rd = s.x rs2)

/-- A misaligned access raises its misaligned exception, with the effective address as trap value, before anything else
is checked; a byte access is always aligned (20_memory.md R111). -/
def Obligations.MisalignedAccessesRaise : Prop :=
  ∀ (s : State) (rd rs1 rs2 : Reg) (imm : BitVec 12) (aq rl : Bool) (ea : Word),
    (ea = BitVec.ofInt 32 ((s.x rs1).toInt + imm.toInt) →
      (ea.toNat % 2 ≠ 0 → Raises (.lh rd rs1 imm) s 4 ea ∧ Raises (.lhu rd rs1 imm) s 4 ea ∧
        Raises (.sh rs1 rs2 imm) s 6 ea) ∧
      (ea.toNat % 4 ≠ 0 → Raises (.lw rd rs1 imm) s 4 ea ∧ Raises (.sw rs1 rs2 imm) s 6 ea)) ∧
    (ea = s.x rs1 → ea.toNat % 4 ≠ 0 →
      Raises (.lrW rd rs1 aq rl) s 4 ea ∧ Raises (.scW rd rs1 rs2 aq rl) s 6 ea ∧
      Raises (.amoswapW rd rs1 rs2 aq rl) s 6 ea ∧ Raises (.amoaddW rd rs1 rs2 aq rl) s 6 ea ∧
      Raises (.amoxorW rd rs1 rs2 aq rl) s 6 ea ∧ Raises (.amoandW rd rs1 rs2 aq rl) s 6 ea ∧
      Raises (.amoorW rd rs1 rs2 aq rl) s 6 ea ∧ Raises (.amominW rd rs1 rs2 aq rl) s 6 ea ∧
      Raises (.amomaxW rd rs1 rs2 aq rl) s 6 ea ∧ Raises (.amominuW rd rs1 rs2 aq rl) s 6 ea ∧
      Raises (.amomaxuW rd rs1 rs2 aq rl) s 6 ea) ∧
    aligned ea .byte = true

/-- An aligned access whose translation raises, or whose physical address `PhysAccessOK` refuses, takes that exception
with the effective address as trap value; loads and LR.W take codes 13 and 5, stores, SC.W and AMOs 15 and 7
(R279, 20_memory.md R107, R120 to R122, 44_a_extension.md R311, 60_exceptions.md R407, R409, R414, R415). -/
def Obligations.FailedAccessesTrap : Prop :=
  ∀ (s : State) (rd rs1 rs2 : Reg) (imm : BitVec 12) (aq rl : Bool) (ea : Word),
    (ea = BitVec.ofInt 32 ((s.x rs1).toInt + imm.toInt) →
      FailsAs (.lb rd rs1 imm) s ea 1 .load ∧ FailsAs (.lbu rd rs1 imm) s ea 1 .load ∧
      FailsAs (.sb rs1 rs2 imm) s ea 1 .store ∧
      (ea.toNat % 2 = 0 → FailsAs (.lh rd rs1 imm) s ea 2 .load ∧ FailsAs (.lhu rd rs1 imm) s ea 2 .load ∧
        FailsAs (.sh rs1 rs2 imm) s ea 2 .store) ∧
      (ea.toNat % 4 = 0 → FailsAs (.lw rd rs1 imm) s ea 4 .load ∧ FailsAs (.sw rs1 rs2 imm) s ea 4 .store)) ∧
    (ea = s.x rs1 → ea.toNat % 4 = 0 →
      FailsAs (.lrW rd rs1 aq rl) s ea 4 .load ∧ FailsAs (.scW rd rs1 rs2 aq rl) s ea 4 .store ∧
      ∀ i ∈ [Instr.amoswapW rd rs1 rs2 aq rl, .amoaddW rd rs1 rs2 aq rl, .amoxorW rd rs1 rs2 aq rl,
          .amoandW rd rs1 rs2 aq rl, .amoorW rd rs1 rs2 aq rl, .amominW rd rs1 rs2 aq rl,
          .amomaxW rd rs1 rs2 aq rl, .amominuW rd rs1 rs2 aq rl, .amomaxuW rd rs1 rs2 aq rl],
        FailsAs i s ea 4 .store ∧
        ∀ pa u, translate s ea .store = .done pa u → physAccessOk u.config pa 4 .load = false →
          exec i s = .next (takeTrap false 7 u.pc ea u))

/-- An access that a platform region permits to a device whose behaviour the spec does not give is refused by name, and
so is a fetch from one (60_exceptions.md R464; the model's choice, log 21). -/
def Obligations.PlatformDevicesAreRefused : Prop :=
  ∀ (s : State) (rd rs1 rs2 : Reg) (imm : BitVec 12) (aq rl : Bool) (ea : Word),
    (ea = BitVec.ofInt 32 ((s.x rs1).toInt + imm.toInt) →
      RefusedAtDevice (.lb rd rs1 imm) s ea 1 .load ∧ RefusedAtDevice (.lbu rd rs1 imm) s ea 1 .load ∧
      RefusedAtDevice (.sb rs1 rs2 imm) s ea 1 .store ∧
      (ea.toNat % 2 = 0 → RefusedAtDevice (.lh rd rs1 imm) s ea 2 .load ∧
        RefusedAtDevice (.lhu rd rs1 imm) s ea 2 .load ∧ RefusedAtDevice (.sh rs1 rs2 imm) s ea 2 .store) ∧
      (ea.toNat % 4 = 0 → RefusedAtDevice (.lw rd rs1 imm) s ea 4 .load ∧
        RefusedAtDevice (.sw rs1 rs2 imm) s ea 4 .store)) ∧
    (ea = s.x rs1 → ea.toNat % 4 = 0 → RefusedAtDevice (.lrW rd rs1 aq rl) s ea 4 .load) ∧
    (∀ pa u, translate s s.pc .fetch = .done pa u → physTarget u.config pa 4 .fetch = some .device →
      instructionCycle s = .refused .platformDevice)

/-- The CLINT words, reached by any mode: a word load returns the register, a word store writes it (msip its bit 0
only), and LR.W, SC.W and the AMOs behave as on RAM; nothing else changes but a reservation that a store overlaps
(20_memory.md R104, 44_a_extension.md R312 to R326, 60_exceptions.md R459 to R462). -/
def Obligations.ClintWordsAnswerWordAccesses : Prop :=
  ∀ (s u : State) (rd rs1 rs2 : Reg) (imm : BitVec 12) (aq rl : Bool) (r : ClintReg) (pa : PAddr) (ea v : Word),
    v = s.x rs2 → ea.toNat % 4 = 0 →
    (ea = BitVec.ofInt 32 ((s.x rs1).toInt + imm.toInt) →
      (reachesClint s ea .load r pa u → LeavesAndWrites (.lw rd rs1 imm) s u rd (clintWord u r)) ∧
      (reachesClint s ea .store r pa u → Leaves (.sw rs1 rs2 imm) s
        { clintStored u r v with reservation := reservationAfterStore u pa.toNat 4 })) ∧
    (ea = s.x rs1 →
      (reachesClint s ea .load r pa u → LeavesAndWrites (.lrW rd rs1 aq rl) s
        { u with reservation := ⟨true, pa.setWidth 32⟩ } rd (clintWord u r)) ∧
      (reachesClint s ea .store r pa u →
        (u.reservation = ⟨true, pa.setWidth 32⟩ → LeavesAndWrites (.scW rd rs1 rs2 aq rl) s
          { clintStored u r v with reservation := ⟨false, u.reservation.addr⟩ } rd 0#32) ∧
        (u.reservation ≠ ⟨true, pa.setWidth 32⟩ → LeavesAndWrites (.scW rd rs1 rs2 aq rl) s
          { u with reservation := ⟨false, u.reservation.addr⟩ } rd 1#32) ∧
        (∀ p ∈ amoResults rd rs1 rs2 aq rl (clintWord u r) v, LeavesAndWrites p.1 s
          { clintStored u r p.2 with reservation := reservationAfterStore u pa.toNat 4 } rd (clintWord u r))))

/-- FENCE in every mode, whatever its fields, and WFI in M and S mode only go on to the next instruction
(R281, 20_memory.md R152, 46_system.md R367). -/
def Obligations.FenceAndWaitPassOn : Prop :=
  (∀ (s : State) (fm pred succ : BitVec 4) (rs1 rd : Reg), PassesOn (.fence fm pred succ rs1 rd) s) ∧
  (∀ s : State, s.priv ≠ .U → PassesOn .wfi s)

/-- Bytes a recent store replaced: a fetch sees, for each byte, the byte in memory or an old value still in the window;
with no such byte it sees memory; every redirect (jump, trap entry, MRET, SRET) empties the window; and after four more
fetches nothing is left of it (20_memory.md R160). That the window holds every replaced value, each for four fetches, is
the model's choice (log 19), and so is that the ITLB entries an SFENCE.VMA removed stay usable as long (log 18). -/
def Obligations.FetchesSeeStoresInTime : Prop :=
  ∀ (s : State) (a k : Nat),
    (s.fetchByte a k = s.mem.read a ∨ ∃ b ∈ s.fetchWindow, b.addr = a ∧ s.fetchByte a k = b.old) ∧
    ((∀ b ∈ s.fetchWindow, b.addr ≠ a) → s.fetchByte a k = s.mem.read a) ∧
    (fetchPathBounded s → s.ageFetch.ageFetch.ageFetch.ageFetch.fetchWindow = [] ∧
      s.ageFetch.ageFetch.ageFetch.ageFetch.itlbGhosts = []) ∧
    (∀ target, (s.jump target).fetchWindow = []) ∧
    (∀ interrupt code epc tval, (takeTrap interrupt code epc tval s).fetchWindow = []) ∧
    (∀ t, (exec .mret s = .next t ∨ exec .sret s = .next t) → t.fetchWindow = [])

/-! ### Atomics (44_a_extension.md) -/

/-- LR.W returns the word its access reaches and reserves it by its physical address; nothing else changes
(R310 to R312). -/
def Obligations.LoadReservedReserves : Prop :=
  ∀ (s u : State) (rd rs1 : Reg) (aq rl : Bool) (pa : PAddr), (s.x rs1).toNat % 4 = 0 →
    reaches s (s.x rs1) 4 .load pa u →
    ∃ t, exec (.lrW rd rs1 aq rl) s = .next t ∧ RegisterBecomes u t rd (wordAt u.mem pa.toNat) ∧
      RetiresTo u t (u.pc + 4#32) ∧ MemorySame u t ∧ t.reservation = ⟨true, pa.setWidth 32⟩ ∧
      t = { u with regs := t.regs, reservation := t.reservation, pc := t.pc, minstret := t.minstret,
                   pcTrace := t.pcTrace }

/-- SC.W writes the word and returns 0 when the reservation is valid and for that word; else it writes nothing and
returns 1; in both cases the reservation is given up (R310, R311, R313). -/
def Obligations.StoreConditionalTestsTheReservation : Prop :=
  ∀ (s u : State) (rd rs1 rs2 : Reg) (aq rl : Bool) (pa : PAddr), (s.x rs1).toNat % 4 = 0 → Memory.wf s.mem →
    (reaches s (s.x rs1) 4 .store pa u → u.reservation = ⟨true, pa.setWidth 32⟩ →
      Exchanges (.scW rd rs1 rs2 aq rl) s u pa.toNat (s.x rs2) rd 0#32 ⟨false, u.reservation.addr⟩) ∧
    (translate s (s.x rs1) .store = .done pa u → physAccessOk u.config pa 4 .store = true →
      u.reservation ≠ ⟨true, pa.setWidth 32⟩ →
      ∃ t, exec (.scW rd rs1 rs2 aq rl) s = .next t ∧ RegisterBecomes u t rd 1#32 ∧
        RetiresTo u t (u.pc + 4#32) ∧ MemorySame u t ∧ t.reservation = ⟨false, u.reservation.addr⟩ ∧
        t = { u with regs := t.regs, reservation := t.reservation, pc := t.pc, minstret := t.minstret,
                     pcTrace := t.pcTrace })

/-- Each AMO writes its operation of the old word and `rs2`, and returns the old word, where memory takes both a load
and a store (R310, R311, R317 to R326). -/
def Obligations.AtomicsExchangeTheWord : Prop :=
  ∀ (s u : State) (rd rs1 rs2 : Reg) (aq rl : Bool) (pa : PAddr) (old v : Word) (r : Reservation),
    (s.x rs1).toNat % 4 = 0 → Memory.wf s.mem → reaches s (s.x rs1) 4 .store pa u →
    physTarget u.config pa 4 .load = some .memory → old = wordAt u.mem pa.toNat → v = s.x rs2 →
    r = reservationAfterStore u pa.toNat 4 →
    Exchanges (.amoswapW rd rs1 rs2 aq rl) s u pa.toNat v rd old r ∧
    Exchanges (.amoaddW rd rs1 rs2 aq rl) s u pa.toNat (BitVec.ofNat 32 (old.toNat + v.toNat)) rd old r ∧
    Exchanges (.amoxorW rd rs1 rs2 aq rl) s u pa.toNat (old ^^^ v) rd old r ∧
    Exchanges (.amoandW rd rs1 rs2 aq rl) s u pa.toNat (old &&& v) rd old r ∧
    Exchanges (.amoorW rd rs1 rs2 aq rl) s u pa.toNat (old ||| v) rd old r ∧
    Exchanges (.amominW rd rs1 rs2 aq rl) s u pa.toNat (BitVec.ofInt 32 (min old.toInt v.toInt)) rd old r ∧
    Exchanges (.amomaxW rd rs1 rs2 aq rl) s u pa.toNat (BitVec.ofInt 32 (max old.toInt v.toInt)) rd old r ∧
    Exchanges (.amominuW rd rs1 rs2 aq rl) s u pa.toNat (BitVec.ofNat 32 (min old.toNat v.toNat)) rd old r ∧
    Exchanges (.amomaxuW rd rs1 rs2 aq rl) s u pa.toNat (BitVec.ofNat 32 (max old.toNat v.toNat)) rd old r

/-- An LR.W and the SC.W to the same word in RAM right after it succeed, with no spurious failure; a second SC.W fails
and leaves memory alone (R312, R313, 20_memory.md R154). -/
def Obligations.PairedStoreConditionalSucceeds : Prop :=
  ∀ (s : State) (rd rs1 rb rv re rc rf rg : Reg) (aq rl aq' rl' : Bool), (s.x rs1).toNat % 4 = 0 →
    plainRam s (s.x rs1) 4 → Memory.wf s.mem →
    ∃ t, exec (.lrW rd rs1 aq rl) s = .next t ∧ (t.x rb = s.x rs1 →
      ∃ u, exec (.scW re rb rv aq' rl') t = .next u ∧ u.x re = 0#32 ∧
        wordAt u.mem (s.x rs1).toNat = t.x rv ∧ (u.x rc = s.x rs1 → rg ≠ 0#5 →
          ∃ v, exec (.scW rg rc rf aq' rl') u = .next v ∧ v.x rg = 1#32 ∧ v.mem = u.mem))

/-- No instruction takes a valid reservation away but an SC.W, a trap entry, and, with `OWN_STORE_CLEARS_RESERVATION`,
a store or AMO or the page-table update of a translated access; and only an LR.W makes one valid or moves it
(R314, R316). -/
def Obligations.ReservationChangesOnlyAsListed : Prop :=
  ∀ (i : Instr) (s t : State), exec i s = .next t →
    (s.reservation.valid = true → t.reservation.valid = false →
      (∃ rd rs1 rs2 aq rl, i = .scW rd rs1 rs2 aq rl) ∨ TrapsOnly i s t ∨
        (s.config.ownStoreClearsReservation = true ∧ (writesMemory i = true ∨ s.translates = true))) ∧
    ((t.reservation.valid = true ∧ s.reservation.valid = false) ∨ t.reservation.addr ≠ s.reservation.addr →
      ∃ rd rs1 aq rl, i = .lrW rd rs1 aq rl)

/-! ### Address translation (20_memory.md) -/

/-- The two-level walk: the addresses of the entries, which entries fault, which are leaves, and that a pointer at level
0 faults (R132 to R134, R139). -/
def Obligations.TheWalkReadsTwoLevels : Prop :=
  ∀ (s : State) (va : Word) (a1 : PAddr),
    a1 = BitVec.ofNat 34 (s.satp.toNat % 2 ^ 22 * 4096 + va.toNat / 2 ^ 22 * 4) →
    (physAccessOk s.config a1 4 .load = false → walk s va = .accessFault) ∧
    (∀ pte1, physTarget s.config a1 4 .load = some .memory → pte1 = wordAt s.mem a1.toNat →
      (entryFaults pte1 → walk s va = .pageFault) ∧
      (¬ entryFaults pte1 → entryEnds pte1 → walk s va = .leaf pte1 a1 .megapage) ∧
      (¬ entryFaults pte1 → ¬ entryEnds pte1 → ∀ a0 : PAddr,
        a0 = BitVec.ofNat 34 (pte1.toNat / 2 ^ 10 * 4096 + va.toNat / 2 ^ 12 % 2 ^ 10 * 4) →
        (physAccessOk s.config a0 4 .load = false → walk s va = .accessFault) ∧
        (∀ pte0, physTarget s.config a0 4 .load = some .memory → pte0 = wordAt s.mem a0.toNat →
          (entryFaults pte0 → walk s va = .pageFault) ∧
          (¬ entryFaults pte0 → entryEnds pte0 → walk s va = .leaf pte0 a0 .page) ∧
          (¬ entryFaults pte0 → ¬ entryEnds pte0 → walk s va = .pageFault))))

/-- The physical address of a level-0 leaf is its page number with the 12-bit offset, of a level-1 leaf its upper page
number with the 22-bit offset; a result beyond 32 bits fails `PhysAccessOK` (R137). -/
def Obligations.LeavesFormThePhysicalAddress : Prop :=
  ∀ pte va : Word,
    (leafAddress pte va .page).toNat = pte.toNat / 2 ^ 10 * 2 ^ 12 + va.toNat % 2 ^ 12 ∧
    (leafAddress pte va .megapage).toNat = pte.toNat / 2 ^ 20 * 2 ^ 22 + va.toNat % 2 ^ 22 ∧
    ∀ (l : Level) (c : Config) (n : Nat) (k : AccessKind),
      (leafAddress pte va l).extractLsb' 32 2 ≠ 0#2 → physAccessOk c (leafAddress pte va l) n k = false

/-- When translation applies and no cached entry matches, a translation is the walk: its page and access faults; the
permission checks of a leaf; its address; and the A and D bits set in memory, never by an access that page-faults
(R131, R134 to R140, R162). -/
def Obligations.UncachedTranslationsAreTheWalk : Prop :=
  ∀ (s : State) (va : Word) (k : AccessKind), s.translates = true → s.tlbCandidates va k = [] → Memory.wf s.mem →
    (walk s va = .pageFault →
      ∃ e u, translate s va k = .raise e u ∧ e.code = pageFaultCode k ∧ CacheTrace s u) ∧
    (walk s va = .accessFault →
      ∃ e u, translate s va k = .raise e u ∧ e.code = accessFaultCode k ∧ CacheTrace s u) ∧
    (∀ pte a l, walk s va = .leaf pte a l →
      (¬ leafPermits s.priv s.mstatus k pte l →
        ∃ e u, translate s va k = .raise e u ∧ e.code = pageFaultCode k ∧ CacheTrace s u) ∧
      (leafPermits s.priv s.mstatus k pte l → ¬ entryNeedsUpdate k pte →
        ∃ u, translate s va k = .done (leafAddress pte va l) u ∧ CacheTrace s u) ∧
      (leafPermits s.priv s.mstatus k pte l → entryNeedsUpdate k pte →
        (physAccessOk s.config a 4 .store = false →
          ∃ e u, translate s va k = .raise e u ∧ e.code = accessFaultCode k ∧ CacheTrace s u) ∧
        (physTarget s.config a 4 .store = some .memory →
          ∃ u, translate s va k = .done (leafAddress pte va l) u ∧ TranslationTrace s va k u ∧
            BytesBecome s u a.toNat 4 (pte ||| (if k = .store then 0xC0#32 else 0x40#32)))))

/-- Translation is the identity in M-mode and when `satp` selects Bare, and then changes nothing; any translated address
comes from a matching cached entry that passes the checks with A and D already set, or from a leaf of the walk that
passes them; besides caching, a translation changes memory only by the A/D update of that leaf, and one that raises
changes none of it (R131, R136, R138, R140). -/
def Obligations.TranslationsComeFromAnEntryOrTheWalk : Prop :=
  ∀ (s : State) (va : Word) (k : AccessKind),
    ((s.priv = .M ∨ sv32Selected s.config s.satp = false) → translate s va k = .done (va.setWidth 34) s) ∧
    (s.priv ≠ .M → sv32Selected s.config s.satp = true →
      (∀ pa u, translate s va k = .done pa u → TranslationTrace s va k u ∧
        ((∃ e ∈ s.tlbCandidates va k, leafPermits s.priv s.mstatus k e.pte e.level ∧ ¬ entryNeedsUpdate k e.pte ∧
            pa = leafAddress e.pte va e.level ∧ CacheTrace s u) ∨
         (∃ pte a l, walk s va = .leaf pte a l ∧ leafPermits s.priv s.mstatus k pte l ∧
            pa = leafAddress pte va l ∧ (CacheTrace s u ∨ (entryNeedsUpdate k pte ∧
              (physTarget s.config a 4 .store = some .memory → u.mem = s.mem.store a.toNat .word
                (pte ||| (if k = .store then 0xC0#32 else 0x40#32)))))))) ∧
      (∀ e u, translate s va k = .raise e u → CacheTrace s u ∧ (e.code = pageFaultCode k ∨ e.code = accessFaultCode k)))

/-- SFENCE.VMA in M or S mode removes from both TLBs every entry, or with a nonzero `rs1` field exactly those that can
translate the address in `rs1`, and changes nothing else a program can see but the fetches already made; afterwards no
data access to the addresses it covers finds a cached entry (46_system.md R366, 20_memory.md R162). That the entries it
does not cover stay is the model's choice (log 34): R366 allows removing more. -/
def Obligations.FenceRemovesCachedTranslations : Prop :=
  ∀ (s : State) (rs1 rs2 : Reg), s.priv ≠ .U →
    ∃ t, exec (.sfenceVma rs1 rs2) s = .next t ∧ RetiresTo s t (s.pc + 4#32) ∧ MemorySame s t ∧
      t = { s with itlb := t.itlb, dtlb := t.dtlb, itlbGhosts := t.itlbGhosts, pc := t.pc, minstret := t.minstret,
                   pcTrace := t.pcTrace } ∧
      (∀ e, (e ∈ t.itlb ↔ e ∈ s.itlb ∧ rs1 ≠ 0#5 ∧ ¬ (match e.level with
          | .page => e.vpn.toNat = (s.x rs1).toNat / 2 ^ 12
          | .megapage => e.vpn.toNat / 2 ^ 10 = (s.x rs1).toNat / 2 ^ 22)) ∧
        (e ∈ t.dtlb ↔ e ∈ s.dtlb ∧ rs1 ≠ 0#5 ∧ ¬ (match e.level with
          | .page => e.vpn.toNat = (s.x rs1).toNat / 2 ^ 12
          | .megapage => e.vpn.toNat / 2 ^ 10 = (s.x rs1).toNat / 2 ^ 22))) ∧
      (∀ va : Word, (rs1 = 0#5 ∨ va.toNat / 2 ^ 12 = (s.x rs1).toNat / 2 ^ 12) →
        t.tlbCandidates va .load = [] ∧ t.tlbCandidates va .store = [])

/-! ### CSRs (10_state.md, 45_zicsr.md) -/

/-- The six CSR instructions on a CSR that exists and that the mode may access: the value each writes, through the CSR's
own write rule, when it writes at all, and the old value in `rd`; nothing else changes (45_zicsr.md R340 to R347). The value that the set and clear forms
combine is the one read but for `mip`; that the immediate forms too combine `seip_sw` there is the model's choice
(log 37). -/
def Obligations.CsrInstructionsReadAndWrite : Prop :=
  ∀ (s : State) (rd rs1 : Reg) (uimm : BitVec 5) (a : CsrAddr) (c : Csr) (old x z : Word),
    csrLookup s.config a = .present c → old = s.readCsr c → x = s.x rs1 → z = BitVec.ofNat 32 uimm.toNat →
    (c ≠ .mip → s.readCsrToModify c = old) ∧
    (csrPermits s.priv a true = true →
      Exchanged (.csrrw rd a rs1) s (s.writeCsr c x) rd old ∧
      Exchanged (.csrrwi rd a uimm) s (s.writeCsr c z) rd old ∧
      (rs1 ≠ 0#5 → Exchanged (.csrrs rd a rs1) s (s.writeCsr c (s.readCsrToModify c ||| x)) rd old ∧
        Exchanged (.csrrc rd a rs1) s (s.writeCsr c (s.readCsrToModify c &&& ~~~x)) rd old) ∧
      (uimm ≠ 0#5 → Exchanged (.csrrsi rd a uimm) s (s.writeCsr c (s.readCsrToModify c ||| z)) rd old ∧
        Exchanged (.csrrci rd a uimm) s (s.writeCsr c (s.readCsrToModify c &&& ~~~z)) rd old)) ∧
    (csrPermits s.priv a false = true →
      (rs1 = 0#5 → Exchanged (.csrrs rd a rs1) s s rd old ∧ Exchanged (.csrrc rd a rs1) s s rd old) ∧
      (uimm = 0#5 → Exchanged (.csrrsi rd a uimm) s s rd old ∧ Exchanged (.csrrci rd a uimm) s s rd old))

/-- A CSR instruction that the mode or a read-only address forbids, or whose CSR is not implemented, raises the illegal
instruction exception and changes nothing; one that names a CSR of R62 without `HAS_COUNTER_CSRS` is refused
(10_state.md R33, R62, R63, 45_zicsr.md R340, R341). -/
def Obligations.CsrChecksRaiseOrRefuse : Prop :=
  ∀ (s : State) (rd rs1 : Reg) (uimm : BitVec 5) (a : CsrAddr) (p : Bool × Instr),
    p ∈ [(true, Instr.csrrw rd a rs1), (rs1 != 0#5, .csrrs rd a rs1), (rs1 != 0#5, .csrrc rd a rs1),
      (true, .csrrwi rd a uimm), (uimm != 0#5, .csrrsi rd a uimm), (uimm != 0#5, .csrrci rd a uimm)] →
    (csrPermits s.priv a p.1 = true ↔
      a.toNat / 256 % 4 ≤ (match s.priv with | .U => 0 | .S => 1 | .M => 3) ∧ ¬ (p.1 = true ∧ a.toNat / 1024 = 3)) ∧
    (csrPermits s.priv a p.1 = false ∨ csrLookup s.config a = .absent →
      Raises p.2 s 2 (if s.config.tvalIllegalIsInstr = true then encode p.2 else 0#32)) ∧
    (csrPermits s.priv a p.1 = true → csrLookup s.config a = .unknown → exec p.2 s = .refused (.unknownCsr a))

/-- Which addresses name a CSR: those of the table, always; those of R62 only with `HAS_COUNTER_CSRS`, and else their
behaviour is unknown; every other address is not implemented; and no CSR that exists can be accessed in U-mode
(10_state.md R32, R62, R63). -/
def Obligations.CsrAddressesNameTheirCsrs : Prop :=
  ∀ (c : Config) (a : CsrAddr),
    (∀ r, (a.toNat, r) ∈ tableCsrs → csrLookup c a = .present r) ∧
    (∀ r, (a.toNat, r) ∈ counterCsrs → csrLookup c a = if c.hasCounterCsrs = true then .present r else .unknown) ∧
    (isHpmAddress a.toNat → csrLookup c a = if c.hasCounterCsrs = true then .present .hpmZero else .unknown) ∧
    (isUnnamedAddress a.toNat → csrLookup c a = if c.hasCounterCsrs = true then .absent else .unknown) ∧
    ((∀ r, (a.toNat, r) ∉ tableCsrs ++ counterCsrs) → ¬ isHpmAddress a.toNat → ¬ isUnnamedAddress a.toNat →
      csrLookup c a = .absent) ∧
    (∀ r, csrLookup c a = .present r → csrPermits .U a false = false)

/-- What writing `mstatus` and `sstatus` stores, bit by bit, and what reading `sstatus` shows: a new MPP of 10 leaves
MPP as it is and writes the other fields (10_state.md R34 to R36). -/
def Obligations.StatusWritesKeepTheirMask : Prop :=
  ∀ (s : State) (v : Word) (j : Nat), j < 32 →
    ((s.writeCsr .mstatus v).mstatus.getLsbD j =
      if j ∈ [1, 3, 5, 7, 8, 18, 19] then v.getLsbD j
      else if j ∈ [11, 12] ∧ ¬ (v.getLsbD 12 = true ∧ v.getLsbD 11 = false) then v.getLsbD j
      else s.mstatus.getLsbD j) ∧
    ((s.writeCsr .sstatus v).mstatus.getLsbD j =
      if j ∈ [1, 5, 8, 18, 19] then v.getLsbD j else s.mstatus.getLsbD j) ∧
    s.readCsr .mstatus = s.mstatus ∧
    ((s.readCsr .sstatus).getLsbD j = if j ∈ [1, 5, 8, 18, 19] then s.mstatus.getLsbD j else false) ∧
    (CsrsLegal s → j ∉ [1, 3, 5, 7, 8, 11, 12, 18, 19] → (s.readCsr .mstatus).getLsbD j = false)

/-- What `mie`, `mip`, `sie` and `sip` read and what a write to each stores, bit by bit (10_state.md R37 to R39,
60_exceptions.md R441, R460, R461). -/
def Obligations.InterruptCsrsFollowTheirLines : Prop :=
  ∀ (s : State) (v : Word) (j : Nat), j < 32 → CsrsLegal s →
    ((s.readCsr .mip).getLsbD j =
      if j = 11 then s.extIrqM
      else if j = 7 then decide (s.mtimecmp.toNat ≤ s.mtime.toNat)
      else if j = 3 then s.msip
      else if j = 9 then s.mipSoft.getLsbD 9 || (s.config.seipExternalLine && s.extIrqS)
      else if j ∈ [1, 5] then s.mipSoft.getLsbD j else false) ∧
    ((s.readCsrToModify .mip).getLsbD j =
      if j = 9 then s.mipSoft.getLsbD 9 else (s.readCsr .mip).getLsbD j) ∧
    ((s.writeCsr .mip v).mipSoft.getLsbD j = if j ∈ [1, 5, 9] then v.getLsbD j else false) ∧
    ((s.writeCsr .mie v).mie.getLsbD j = if j ∈ [1, 3, 5, 7, 9, 11] then v.getLsbD j else false) ∧
    ((s.readCsr .mie).getLsbD j = s.mie.getLsbD j) ∧
    ((s.readCsr .sie).getLsbD j = (decide (j ∈ [1, 5, 9]) && s.mideleg.getLsbD j && s.mie.getLsbD j)) ∧
    ((s.writeCsr .sie v).mie.getLsbD j =
      if j ∈ [1, 5, 9] ∧ s.mideleg.getLsbD j = true then v.getLsbD j else s.mie.getLsbD j) ∧
    ((s.readCsr .sip).getLsbD j =
      (decide (j ∈ [1, 5, 9]) && s.mideleg.getLsbD j && (s.readCsr .mip).getLsbD j)) ∧
    ((s.writeCsr .sip v).mipSoft.getLsbD j =
      if j = 1 ∧ s.mideleg.getLsbD 1 = true then v.getLsbD 1 else s.mipSoft.getLsbD j)

/-- What the trap CSRs and `satp` read and what a write to each stores, which CSRs are fixed, and that a write to a CSR
changes nothing but the field that holds it (10_state.md R40 to R57); that a write to a counter changes nothing is the
model's choice (log 23). -/
def Obligations.CsrWritesStoreTheirLegalValue : Prop :=
  ∀ (s : State) (v : Word),
    (∀ j, j < 32 →
      ((s.writeCsr .mtvec v).mtvec.getLsbD j =
        if j < 2 ∧ v.getLsbD 1 = true then s.mtvec.getLsbD j else v.getLsbD j) ∧
      ((s.writeCsr .stvec v).stvec.getLsbD j =
        if j < 2 ∧ v.getLsbD 1 = true then s.stvec.getLsbD j else v.getLsbD j) ∧
      ((s.writeCsr .mepc v).mepc.getLsbD j = (decide (2 ≤ j) && v.getLsbD j)) ∧
      ((s.writeCsr .sepc v).sepc.getLsbD j = (decide (2 ≤ j) && v.getLsbD j)) ∧
      ((s.writeCsr .medeleg v).medeleg.getLsbD j = (decide (j < 10 ∨ j ∈ [12, 13, 15]) && v.getLsbD j)) ∧
      ((s.writeCsr .mideleg v).mideleg.getLsbD j = (decide (j ∈ [1, 5, 9]) && v.getLsbD j)) ∧
      (s.config.satpLayout = .riscv →
        (s.writeCsr .satp v).satp.getLsbD j = (decide (j ≠ 30) && v.getLsbD j))) ∧
    (s.config.satpLayout = .psdText → (s.writeCsr .satp v).satp = if 2 ^ 31 ≤ v.toNat then s.satp else v) ∧
    (s.writeCsr .mcause v).mcause = v ∧ (s.writeCsr .scause v).scause = v ∧ (s.writeCsr .mtval v).mtval = v ∧
    (s.writeCsr .stval v).stval = v ∧ (s.writeCsr .mscratch v).mscratch = v ∧
    (s.writeCsr .sscratch v).sscratch = v ∧
    (∀ c ∈ [Csr.misa, .mvendorid, .marchid, .mimpid, .mhartid],
      s.writeCsr c v = s ∧ s.readCsr c = if c = .misa then 0x40141101#32 else 0#32) ∧
    s.readCsr .mtvec = s.mtvec ∧ s.readCsr .stvec = s.stvec ∧ s.readCsr .mepc = s.mepc ∧ s.readCsr .sepc = s.sepc ∧
    s.readCsr .mcause = s.mcause ∧ s.readCsr .scause = s.scause ∧ s.readCsr .mtval = s.mtval ∧
    s.readCsr .stval = s.stval ∧ s.readCsr .medeleg = s.medeleg ∧ s.readCsr .mideleg = s.mideleg ∧
    s.readCsr .mscratch = s.mscratch ∧ s.readCsr .sscratch = s.sscratch ∧ s.readCsr .satp = s.satp ∧
    (∀ c, OnlyCsrChanges c s (s.writeCsr c v))

/-- The counter CSRs of `HAS_COUNTER_CSRS`: `minstret` and `mcycle` are read in two halves, and `mcycle` never decreases
over a step; the enables hold what is written and the others read 0 (10_state.md R62; that a write to a counter is
ignored is the model's choice, log 23). -/
def Obligations.CountersReadAndCount : Prop :=
  ∀ (s : State) (v : Word),
    ((s.readCsr .minstreth).toNat * 2 ^ 32 + (s.readCsr .minstret).toNat = s.minstret.toNat) ∧
    ((s.readCsr .mcycleh).toNat * 2 ^ 32 + (s.readCsr .mcycle).toNat = s.mcycle.toNat) ∧
    (s.writeCsr .mcounteren v).readCsr .mcounteren = v ∧ (s.writeCsr .scounteren v).readCsr .scounteren = v ∧
    s.readCsr .hpmZero = 0#32 ∧
    (∀ c ∈ [Csr.minstret, .minstreth, .mcycle, .mcycleh, .hpmZero], s.writeCsr c v = s) ∧
    (∀ t, step s = .next t → s.mcycle.toNat ≤ t.mcycle.toNat)

/-! ### Traps (60_exceptions.md) -/

/-- Trap entry, register by register: where it is handled, what is saved, what `mstatus` becomes, and that nothing else
changes (R431, R433, 44_a_extension.md R315). -/
def Obligations.TrapEntrySavesAndRedirects : Prop :=
  ∀ (s t : State) (interrupt : Bool) (code : Nat) (epc tval : Word), code < 32 →
    t = takeTrap interrupt code epc tval s →
    (s.priv ≠ .M ∧ (if interrupt = true then s.mideleg else s.medeleg).getLsbD code = true →
      t.sepc = epc ∧ t.scause.toNat = (if interrupt = true then 2 ^ 31 else 0) + code ∧ t.stval = tval ∧
      t.priv = .S ∧ t.pc = trapVector s.config s.stvec interrupt code ∧
      (∀ j, j < 32 → t.mstatus.getLsbD j =
        if j = 5 then s.mstatus.getLsbD 1 else if j = 1 then false
        else if j = 8 then decide (s.priv = .S) else s.mstatus.getLsbD j) ∧
      t = { s with sepc := t.sepc, scause := t.scause, stval := t.stval, mstatus := t.mstatus, priv := t.priv,
                   pc := t.pc, reservation := t.reservation, fetchWindow := [], itlbGhosts := [] }) ∧
    (¬ (s.priv ≠ .M ∧ (if interrupt = true then s.mideleg else s.medeleg).getLsbD code = true) →
      t.mepc = epc ∧ t.mcause.toNat = (if interrupt = true then 2 ^ 31 else 0) + code ∧ t.mtval = tval ∧
      t.priv = .M ∧ t.pc = trapVector s.config s.mtvec interrupt code ∧
      (∀ j, j < 32 → t.mstatus.getLsbD j =
        if j = 7 then s.mstatus.getLsbD 3 else if j = 3 then false
        else if j = 11 then decide (s.priv ≠ .U) else if j = 12 then decide (s.priv = .M)
        else s.mstatus.getLsbD j) ∧
      t = { s with mepc := t.mepc, mcause := t.mcause, mtval := t.mtval, mstatus := t.mstatus, priv := t.priv,
                   pc := t.pc, reservation := t.reservation, fetchWindow := [], itlbGhosts := [] }) ∧
    t.reservation.valid = false ∧ t.reservation.addr = s.reservation.addr

/-- The vector address: BASE in Direct mode; in Vectored mode BASE plus four times the code for an interrupt, and for an
exception only with `VECTORED_SYNC_EXCEPTIONS`, the parameter that 92_eei_decisions.md D17 makes of conflict C4;
modulo 2^32 (R432). -/
def Obligations.VectorsFollowTheMode : Prop :=
  ∀ (c : Config) (tvec : Word) (interrupt : Bool) (code : Nat),
    (tvec.toNat % 4 = 0 → trapVector c tvec interrupt code = tvec) ∧
    (tvec.toNat % 4 = 1 → interrupt = true →
      trapVector c tvec interrupt code = BitVec.ofNat 32 (tvec.toNat - 1 + 4 * code)) ∧
    (tvec.toNat % 4 = 1 → interrupt = false → trapVector c tvec interrupt code =
      if c.vectoredSyncExceptions = true then BitVec.ofNat 32 (tvec.toNat - 1 + 4 * code)
      else BitVec.ofNat 32 (tvec.toNat - 1))

/-- ECALL takes the exception of the mode it is executed in, with trap value 0; EBREAK takes code 3 with its own address
as trap value (46_system.md R361, R362, 60_exceptions.md R405, R410 to R412). -/
def Obligations.CallsAndBreakpointsTrap : Prop :=
  ∀ s : State,
    Raises .ecall s (match s.priv with | .U => 8 | .S => 9 | .M => 11) 0#32 ∧ Raises .ebreak s 3 s.pc

/-- MRET in M-mode and SRET in S or M mode: the mode, the enable bits and the pc they restore, and that nothing else
changes; MRET with an MPP of 10, which no run can store, stops (46_system.md R363 to R365; the stop is the model's,
log 24). -/
def Obligations.ReturnsRestoreTheSavedState : Prop :=
  ∀ s : State,
    (s.priv = .M → statusMPP s.mstatus ≠ 0b10#2 → ∃ t, exec .mret s = .next t ∧ t.priv.bits = statusMPP s.mstatus ∧
      RetiresTo s t s.mepc ∧ MemorySame s t ∧
      (∀ j, j < 32 → t.mstatus.getLsbD j =
        if j = 3 then s.mstatus.getLsbD 7 else if j = 7 then true
        else if j ∈ [11, 12] then false else s.mstatus.getLsbD j) ∧
      t = { s with priv := t.priv, mstatus := t.mstatus, pc := t.pc, minstret := t.minstret, pcTrace := t.pcTrace,
                   fetchWindow := [], itlbGhosts := [] }) ∧
    (s.priv = .M → statusMPP s.mstatus = 0b10#2 → exec .mret s = .fault .mppReserved) ∧
    (s.priv ≠ .U → ∃ t, exec .sret s = .next t ∧ (t.priv = if s.mstatus.getLsbD 8 = true then .S else .U) ∧
      RetiresTo s t s.sepc ∧ MemorySame s t ∧
      (∀ j, j < 32 → t.mstatus.getLsbD j =
        if j = 1 then s.mstatus.getLsbD 5 else if j = 5 then true
        else if j = 8 then false else s.mstatus.getLsbD j) ∧
      t = { s with priv := t.priv, mstatus := t.mstatus, pc := t.pc, minstret := t.minstret, pcTrace := t.pcTrace,
                   fetchWindow := [], itlbGhosts := [] })

/-- MRET below M-mode, and SRET, SFENCE.VMA and WFI in U-mode, raise the illegal instruction exception
(46_system.md R360, 60_exceptions.md R404). -/
def Obligations.PrivilegedInstructionsAreIllegalBelow : Prop :=
  ∀ (s : State) (rs1 rs2 : Reg) (v : Word → Word), (v = fun w => if s.config.tvalIllegalIsInstr = true then w else 0#32) →
    (s.priv ≠ .M → Raises .mret s 2 (v 0x30200073#32)) ∧
    (s.priv = .U → Raises .sret s 2 (v 0x10200073#32) ∧ Raises .wfi s 2 (v 0x10500073#32) ∧
      Raises (.sfenceVma rs1 rs2) s 2
        (v (BitVec.ofNat 32 (0x12000073 + rs2.toNat * 2 ^ 20 + rs1.toNat * 2 ^ 15))))

/-- A trap into M-mode and the MRET that follows restore the mode and the enable: from mode `p` with MIE = e, they give
`priv = p`, MIE = e, MPIE = 1, MPP = 00, and the pc that was saved (R436). -/
def Obligations.TrapThenReturnRestoresTheMode : Prop :=
  ∀ (s t : State) (interrupt : Bool) (code : Nat) (tval : Word),
    ¬ (s.priv ≠ .M ∧ (if interrupt = true then s.mideleg else s.medeleg).getLsbD code = true) →
    t = takeTrap interrupt code s.pc tval s →
    ∃ u, exec .mret t = .next u ∧ u.priv = s.priv ∧ u.pc = s.pc ∧ u.mstatus.getLsbD 3 = s.mstatus.getLsbD 3 ∧
      u.mstatus.getLsbD 7 = true ∧ statusMPP u.mstatus = 0b00#2 ∧ u.regs = s.regs ∧ u.mem = s.mem

/-- When an interrupt is takeable: pending, enabled in `mie`, and let through by the current mode for its target
(R443). -/
def Obligations.TakeableInterruptsAreThoseOfTheRule : Prop :=
  ∀ (s : State) (i : Interrupt),
    s.takeable i = true ↔
      (s.readCsr .mip).getLsbD i.code = true ∧ (s.readCsr .mie).getLsbD i.code = true ∧
      (if s.mideleg.getLsbD i.code = true then
        (s.priv = .S ∧ s.mstatus.getLsbD 1 = true) ∨ s.priv = .U
      else (s.priv = .M ∧ s.mstatus.getLsbD 3 = true) ∨ s.priv = .S ∨ s.priv = .U)

/-- The interrupt taken is the first takeable one, targets in M before targets in S, then MEI, MTI, MSI, SEI, STI, SSI;
none is taken only when none is takeable (R444). -/
def Obligations.InterruptsAreTakenInOrder : Prop :=
  ∀ s : State,
    (∀ i, s.pendingInterrupt = some i ↔ s.takeable i = true ∧ ∀ j, s.takeable j = true →
      (s.mideleg.getLsbD j.code = false → s.mideleg.getLsbD i.code = false) ∧
      (s.mideleg.getLsbD j.code = s.mideleg.getLsbD i.code → interruptPlace i ≤ interruptPlace j)) ∧
    (s.pendingInterrupt = none ↔ ∀ j, s.takeable j = false)

/-! ### The whole machine -/

/-- An instruction that gives a next state has either retired, all its writes made, or ended in the entry of one
exception that saves its own pc, with nothing changed besides that entry but what the translation of its own access
leaves: cached translations, and at most the one page-table entry in which it set A or D (R400, R430). -/
def Obligations.InstructionsRetireOrOnlyTrap : Prop :=
  ∀ (i : Instr) (s t : State), exec i s = .next t →
    (t.minstret = s.minstret + 1#64 ∧ t.pcTrace = s.pc :: s.pcTrace) ∨ TrapsOnly i s t

/-- The mode changes only by a trap entry, MRET, SRET or reset; an instruction that raises the mode is a trap; and a
step's events change it only by reset, to M (R451, 10_state.md R30). -/
def Obligations.ModeChangesOnlyByTrapReturnOrReset : Prop :=
  (∀ (i : Instr) (s t : State), exec i s = .next t → t.priv ≠ s.priv →
    TrapsOnly i s t ∨ (t.priv.bits.toNat < s.priv.bits.toNat ∧ (i = .mret ∨ i = .sret))) ∧
  (∀ s t : State, step s = .next t → (∀ e ∈ s.inputs.headD [], e ≠ .reset) → t.priv ≠ s.priv →
    (∃ j : Interrupt, t = takeTrap true j.code (atBoundary s).pc 0#32 (atBoundary s)) ∨
    (∃ e u, fetch (atBoundary s) = .raise e u ∧ t = takeTrap false e.code u.pc u.pc u) ∨
    (∃ w u, fetch (atBoundary s) = .done w u ∧ u.priv = s.priv ∧
      ((decodeWord w = none ∧ t = raiseIllegal w u) ∨
        ∃ i, decodeWord w = some i ∧ exec i u = .next t ∧ (TrapsOnly i u t ∨ i = .mret ∨ i = .sret)))) ∧
  (∀ s : State, (atBoundary s).priv ≠ s.priv → (atBoundary s).priv = .M ∧ ∃ e ∈ s.inputs.headD [], e = .reset)

/-- An instruction executed in U-mode leaves the mode and every stored CSR but the counters as they are, unless it ends
in a trap (R450, 10_state.md R32, R33). -/
def Obligations.UserModeChangesNoPrivilegedState : Prop :=
  ∀ (i : Instr) (s t : State), s.priv = .U → exec i s = .next t → TrapsOnly i s t ∨ PrivilegedSame s t

/-- Registers x32 to x63 are never written and x0 keeps its value, in any step without an external reset (10_state.md R21,
R22). That no step changes the parameters of 00_scope.md R7, which the model holds in its state, is the model's choice
(log 1). -/
def Obligations.UpperRegistersNeverChange : Prop :=
  ∀ (s t : State), step s = .next t → (∀ e ∈ s.inputs.headD [], e ≠ .reset) →
    (∀ p : Fin 64, p = 0 ∨ 32 ≤ p.val → t.regs.get p = s.regs.get p) ∧ t.config = s.config

/-- What the environment does between two instructions: the lines take their level, `mtime` advances modulo 2^64,
another master's write changes exactly the memory bytes it covers, its word store to a CLINT register that register, and
each clears a reservation it overlaps (00_scope.md R8, 10_state.md R66, 60_exceptions.md R445, R460, R461,
20_memory.md R155, 44_a_extension.md R316). That the environment is a list of such events is the model's choice (log 13),
and so is what another master can reach: the bytes that are `isMemoryByte`, and the CLINT words (log 29). -/
def Obligations.EnvironmentEventsAct : Prop :=
  ∀ (s : State),
    (∀ l, applyEvent s (.extIrqM l) = { s with extIrqM := l } ∧ applyEvent s (.extIrqS l) = { s with extIrqS := l }) ∧
    (∀ l, applyEvent s (.softwareIrq l) = { s with msip := l }) ∧
    (∀ (addr v : Word) (r : ClintReg) (t : State), addr.toNat = clintWordAddress s.config r →
      inRam s.config addr.toNat 4 = false → t = applyEvent s (.foreignClintStore addr v) →
      t = { clintStored s r v with reservation := t.reservation } ∧ t.reservation.addr = s.reservation.addr ∧
      (t.reservation.valid = true ↔ s.reservation.valid = true ∧
        (addr.toNat + 4 ≤ s.reservation.addr.toNat ∨ s.reservation.addr.toNat + 4 ≤ addr.toNat))) ∧
    (∀ (addr v : Word), (∀ r, addr.toNat ≠ clintWordAddress s.config r) →
      applyEvent s (.foreignClintStore addr v) = s) ∧
    (∀ n, applyEvent s (.tick n) = { s with mtime := BitVec.ofNat 64 (s.mtime.toNat + n) }) ∧
    (∀ (addr : Word) (bytes : List Byte) (t : State), Memory.wf s.mem → t = applyEvent s (.foreignWrite addr bytes) →
      (∀ k v, bytes[k]? = some v → isMemoryByte s.config (addr.toNat + k) = true →
        t.mem.read (addr.toNat + k) = v) ∧
      (∀ a, outside a addr.toNat bytes.length ∨ isMemoryByte s.config a = false → t.mem.read a = s.mem.read a) ∧
      ((∃ k, k < bytes.length ∧ isMemoryByte s.config (addr.toNat + k) = true ∧
          ¬ outside (addr.toNat + k) s.reservation.addr.toNat 4) → t.reservation.valid = false) ∧
      ((∀ k, k < bytes.length → isMemoryByte s.config (addr.toNat + k) = true →
          outside (addr.toNat + k) s.reservation.addr.toNat 4) → t.reservation = s.reservation) ∧
      t = { s with mem := t.mem, fetchWindow := t.fetchWindow, reservation := t.reservation })

end
end

