-- ==== Sys2Proof/Laws/State.lean ====
section
/-! SUPPORT. One lemma per field per update of the state, so that no proof unfolds a record update. -/

namespace Sys2Proof.Machine

/-! ### `setX` -/

@[simp] theorem State.setX_regs (s : State) (r : Reg) (v : Word) :
    (s.setX r v).regs = writePort s.regs (portOf r) v := rfl
@[simp] theorem State.setX_pc (s : State) (r : Reg) (v : Word) : (s.setX r v).pc = s.pc := rfl
@[simp] theorem State.setX_priv (s : State) (r : Reg) (v : Word) : (s.setX r v).priv = s.priv := rfl
@[simp] theorem State.setX_mstatus (s : State) (r : Reg) (v : Word) : (s.setX r v).mstatus = s.mstatus := rfl
@[simp] theorem State.setX_mie (s : State) (r : Reg) (v : Word) : (s.setX r v).mie = s.mie := rfl
@[simp] theorem State.setX_mipSoft (s : State) (r : Reg) (v : Word) : (s.setX r v).mipSoft = s.mipSoft := rfl
@[simp] theorem State.setX_mtvec (s : State) (r : Reg) (v : Word) : (s.setX r v).mtvec = s.mtvec := rfl
@[simp] theorem State.setX_stvec (s : State) (r : Reg) (v : Word) : (s.setX r v).stvec = s.stvec := rfl
@[simp] theorem State.setX_mepc (s : State) (r : Reg) (v : Word) : (s.setX r v).mepc = s.mepc := rfl
@[simp] theorem State.setX_sepc (s : State) (r : Reg) (v : Word) : (s.setX r v).sepc = s.sepc := rfl
@[simp] theorem State.setX_mcause (s : State) (r : Reg) (v : Word) : (s.setX r v).mcause = s.mcause := rfl
@[simp] theorem State.setX_scause (s : State) (r : Reg) (v : Word) : (s.setX r v).scause = s.scause := rfl
@[simp] theorem State.setX_mtval (s : State) (r : Reg) (v : Word) : (s.setX r v).mtval = s.mtval := rfl
@[simp] theorem State.setX_stval (s : State) (r : Reg) (v : Word) : (s.setX r v).stval = s.stval := rfl
@[simp] theorem State.setX_medeleg (s : State) (r : Reg) (v : Word) : (s.setX r v).medeleg = s.medeleg := rfl
@[simp] theorem State.setX_mideleg (s : State) (r : Reg) (v : Word) : (s.setX r v).mideleg = s.mideleg := rfl
@[simp] theorem State.setX_mscratch (s : State) (r : Reg) (v : Word) : (s.setX r v).mscratch = s.mscratch := rfl
@[simp] theorem State.setX_sscratch (s : State) (r : Reg) (v : Word) : (s.setX r v).sscratch = s.sscratch := rfl
@[simp] theorem State.setX_satp (s : State) (r : Reg) (v : Word) : (s.setX r v).satp = s.satp := rfl
@[simp] theorem State.setX_mcounteren (s : State) (r : Reg) (v : Word) : (s.setX r v).mcounteren = s.mcounteren := rfl
@[simp] theorem State.setX_scounteren (s : State) (r : Reg) (v : Word) : (s.setX r v).scounteren = s.scounteren := rfl
@[simp] theorem State.setX_mcycle (s : State) (r : Reg) (v : Word) : (s.setX r v).mcycle = s.mcycle := rfl
@[simp] theorem State.setX_minstret (s : State) (r : Reg) (v : Word) : (s.setX r v).minstret = s.minstret := rfl
@[simp] theorem State.setX_reservation (s : State) (r : Reg) (v : Word) :
    (s.setX r v).reservation = s.reservation := rfl
@[simp] theorem State.setX_itlb (s : State) (r : Reg) (v : Word) : (s.setX r v).itlb = s.itlb := rfl
@[simp] theorem State.setX_dtlb (s : State) (r : Reg) (v : Word) : (s.setX r v).dtlb = s.dtlb := rfl
@[simp] theorem State.setX_extIrqM (s : State) (r : Reg) (v : Word) : (s.setX r v).extIrqM = s.extIrqM := rfl
@[simp] theorem State.setX_extIrqS (s : State) (r : Reg) (v : Word) : (s.setX r v).extIrqS = s.extIrqS := rfl
@[simp] theorem State.setX_msip (s : State) (r : Reg) (v : Word) : (s.setX r v).msip = s.msip := rfl
@[simp] theorem State.setX_mtime (s : State) (r : Reg) (v : Word) : (s.setX r v).mtime = s.mtime := rfl
@[simp] theorem State.setX_mtimecmp (s : State) (r : Reg) (v : Word) : (s.setX r v).mtimecmp = s.mtimecmp := rfl
@[simp] theorem State.setX_mem (s : State) (r : Reg) (v : Word) : (s.setX r v).mem = s.mem := rfl
@[simp] theorem State.setX_fetchWindow (s : State) (r : Reg) (v : Word) :
    (s.setX r v).fetchWindow = s.fetchWindow := rfl
@[simp] theorem State.setX_itlbGhosts (s : State) (r : Reg) (v : Word) : (s.setX r v).itlbGhosts = s.itlbGhosts := rfl
@[simp] theorem State.setX_pcTrace (s : State) (r : Reg) (v : Word) : (s.setX r v).pcTrace = s.pcTrace := rfl
@[simp] theorem State.setX_inputs (s : State) (r : Reg) (v : Word) : (s.setX r v).inputs = s.inputs := rfl
@[simp] theorem State.setX_draws (s : State) (r : Reg) (v : Word) : (s.setX r v).draws = s.draws := rfl
@[simp] theorem State.setX_config (s : State) (r : Reg) (v : Word) : (s.setX r v).config = s.config := rfl

/-! ### `retire` -/

@[simp] theorem State.retire_regs (s : State) : (s.retire).regs = s.regs := rfl
@[simp] theorem State.retire_pc (s : State) : (s.retire).pc = s.pc := rfl
@[simp] theorem State.retire_priv (s : State) : (s.retire).priv = s.priv := rfl
@[simp] theorem State.retire_mstatus (s : State) : (s.retire).mstatus = s.mstatus := rfl
@[simp] theorem State.retire_mie (s : State) : (s.retire).mie = s.mie := rfl
@[simp] theorem State.retire_mipSoft (s : State) : (s.retire).mipSoft = s.mipSoft := rfl
@[simp] theorem State.retire_mtvec (s : State) : (s.retire).mtvec = s.mtvec := rfl
@[simp] theorem State.retire_stvec (s : State) : (s.retire).stvec = s.stvec := rfl
@[simp] theorem State.retire_mepc (s : State) : (s.retire).mepc = s.mepc := rfl
@[simp] theorem State.retire_sepc (s : State) : (s.retire).sepc = s.sepc := rfl
@[simp] theorem State.retire_mcause (s : State) : (s.retire).mcause = s.mcause := rfl
@[simp] theorem State.retire_scause (s : State) : (s.retire).scause = s.scause := rfl
@[simp] theorem State.retire_mtval (s : State) : (s.retire).mtval = s.mtval := rfl
@[simp] theorem State.retire_stval (s : State) : (s.retire).stval = s.stval := rfl
@[simp] theorem State.retire_medeleg (s : State) : (s.retire).medeleg = s.medeleg := rfl
@[simp] theorem State.retire_mideleg (s : State) : (s.retire).mideleg = s.mideleg := rfl
@[simp] theorem State.retire_mscratch (s : State) : (s.retire).mscratch = s.mscratch := rfl
@[simp] theorem State.retire_sscratch (s : State) : (s.retire).sscratch = s.sscratch := rfl
@[simp] theorem State.retire_satp (s : State) : (s.retire).satp = s.satp := rfl
@[simp] theorem State.retire_mcounteren (s : State) : (s.retire).mcounteren = s.mcounteren := rfl
@[simp] theorem State.retire_scounteren (s : State) : (s.retire).scounteren = s.scounteren := rfl
@[simp] theorem State.retire_mcycle (s : State) : (s.retire).mcycle = s.mcycle := rfl
@[simp] theorem State.retire_minstret (s : State) : (s.retire).minstret = s.minstret + 1#64 := rfl
@[simp] theorem State.retire_reservation (s : State) : (s.retire).reservation = s.reservation := rfl
@[simp] theorem State.retire_itlb (s : State) : (s.retire).itlb = s.itlb := rfl
@[simp] theorem State.retire_dtlb (s : State) : (s.retire).dtlb = s.dtlb := rfl
@[simp] theorem State.retire_extIrqM (s : State) : (s.retire).extIrqM = s.extIrqM := rfl
@[simp] theorem State.retire_extIrqS (s : State) : (s.retire).extIrqS = s.extIrqS := rfl
@[simp] theorem State.retire_msip (s : State) : (s.retire).msip = s.msip := rfl
@[simp] theorem State.retire_mtime (s : State) : (s.retire).mtime = s.mtime := rfl
@[simp] theorem State.retire_mtimecmp (s : State) : (s.retire).mtimecmp = s.mtimecmp := rfl
@[simp] theorem State.retire_mem (s : State) : (s.retire).mem = s.mem := rfl
@[simp] theorem State.retire_fetchWindow (s : State) : (s.retire).fetchWindow = s.fetchWindow := rfl
@[simp] theorem State.retire_itlbGhosts (s : State) : (s.retire).itlbGhosts = s.itlbGhosts := rfl
@[simp] theorem State.retire_pcTrace (s : State) : (s.retire).pcTrace = s.pc :: s.pcTrace := rfl
@[simp] theorem State.retire_inputs (s : State) : (s.retire).inputs = s.inputs := rfl
@[simp] theorem State.retire_draws (s : State) : (s.retire).draws = s.draws := rfl
@[simp] theorem State.retire_config (s : State) : (s.retire).config = s.config := rfl

/-! ### `advance` -/

@[simp] theorem State.advance_regs (s : State) : (s.advance).regs = s.regs := rfl
@[simp] theorem State.advance_pc (s : State) : (s.advance).pc = s.pc + 4#32 := rfl
@[simp] theorem State.advance_priv (s : State) : (s.advance).priv = s.priv := rfl
@[simp] theorem State.advance_mstatus (s : State) : (s.advance).mstatus = s.mstatus := rfl
@[simp] theorem State.advance_mie (s : State) : (s.advance).mie = s.mie := rfl
@[simp] theorem State.advance_mipSoft (s : State) : (s.advance).mipSoft = s.mipSoft := rfl
@[simp] theorem State.advance_mtvec (s : State) : (s.advance).mtvec = s.mtvec := rfl
@[simp] theorem State.advance_stvec (s : State) : (s.advance).stvec = s.stvec := rfl
@[simp] theorem State.advance_mepc (s : State) : (s.advance).mepc = s.mepc := rfl
@[simp] theorem State.advance_sepc (s : State) : (s.advance).sepc = s.sepc := rfl
@[simp] theorem State.advance_mcause (s : State) : (s.advance).mcause = s.mcause := rfl
@[simp] theorem State.advance_scause (s : State) : (s.advance).scause = s.scause := rfl
@[simp] theorem State.advance_mtval (s : State) : (s.advance).mtval = s.mtval := rfl
@[simp] theorem State.advance_stval (s : State) : (s.advance).stval = s.stval := rfl
@[simp] theorem State.advance_medeleg (s : State) : (s.advance).medeleg = s.medeleg := rfl
@[simp] theorem State.advance_mideleg (s : State) : (s.advance).mideleg = s.mideleg := rfl
@[simp] theorem State.advance_mscratch (s : State) : (s.advance).mscratch = s.mscratch := rfl
@[simp] theorem State.advance_sscratch (s : State) : (s.advance).sscratch = s.sscratch := rfl
@[simp] theorem State.advance_satp (s : State) : (s.advance).satp = s.satp := rfl
@[simp] theorem State.advance_mcounteren (s : State) : (s.advance).mcounteren = s.mcounteren := rfl
@[simp] theorem State.advance_scounteren (s : State) : (s.advance).scounteren = s.scounteren := rfl
@[simp] theorem State.advance_mcycle (s : State) : (s.advance).mcycle = s.mcycle := rfl
@[simp] theorem State.advance_minstret (s : State) : (s.advance).minstret = s.minstret + 1#64 := rfl
@[simp] theorem State.advance_reservation (s : State) : (s.advance).reservation = s.reservation := rfl
@[simp] theorem State.advance_itlb (s : State) : (s.advance).itlb = s.itlb := rfl
@[simp] theorem State.advance_dtlb (s : State) : (s.advance).dtlb = s.dtlb := rfl
@[simp] theorem State.advance_extIrqM (s : State) : (s.advance).extIrqM = s.extIrqM := rfl
@[simp] theorem State.advance_extIrqS (s : State) : (s.advance).extIrqS = s.extIrqS := rfl
@[simp] theorem State.advance_msip (s : State) : (s.advance).msip = s.msip := rfl
@[simp] theorem State.advance_mtime (s : State) : (s.advance).mtime = s.mtime := rfl
@[simp] theorem State.advance_mtimecmp (s : State) : (s.advance).mtimecmp = s.mtimecmp := rfl
@[simp] theorem State.advance_mem (s : State) : (s.advance).mem = s.mem := rfl
@[simp] theorem State.advance_fetchWindow (s : State) : (s.advance).fetchWindow = s.fetchWindow := rfl
@[simp] theorem State.advance_itlbGhosts (s : State) : (s.advance).itlbGhosts = s.itlbGhosts := rfl
@[simp] theorem State.advance_pcTrace (s : State) : (s.advance).pcTrace = s.pc :: s.pcTrace := rfl
@[simp] theorem State.advance_inputs (s : State) : (s.advance).inputs = s.inputs := rfl
@[simp] theorem State.advance_draws (s : State) : (s.advance).draws = s.draws := rfl
@[simp] theorem State.advance_config (s : State) : (s.advance).config = s.config := rfl

/-! ### `flushFetch` -/

@[simp] theorem State.flushFetch_regs (s : State) : (s.flushFetch).regs = s.regs := rfl
@[simp] theorem State.flushFetch_pc (s : State) : (s.flushFetch).pc = s.pc := rfl
@[simp] theorem State.flushFetch_priv (s : State) : (s.flushFetch).priv = s.priv := rfl
@[simp] theorem State.flushFetch_mstatus (s : State) : (s.flushFetch).mstatus = s.mstatus := rfl
@[simp] theorem State.flushFetch_mie (s : State) : (s.flushFetch).mie = s.mie := rfl
@[simp] theorem State.flushFetch_mipSoft (s : State) : (s.flushFetch).mipSoft = s.mipSoft := rfl
@[simp] theorem State.flushFetch_mtvec (s : State) : (s.flushFetch).mtvec = s.mtvec := rfl
@[simp] theorem State.flushFetch_stvec (s : State) : (s.flushFetch).stvec = s.stvec := rfl
@[simp] theorem State.flushFetch_mepc (s : State) : (s.flushFetch).mepc = s.mepc := rfl
@[simp] theorem State.flushFetch_sepc (s : State) : (s.flushFetch).sepc = s.sepc := rfl
@[simp] theorem State.flushFetch_mcause (s : State) : (s.flushFetch).mcause = s.mcause := rfl
@[simp] theorem State.flushFetch_scause (s : State) : (s.flushFetch).scause = s.scause := rfl
@[simp] theorem State.flushFetch_mtval (s : State) : (s.flushFetch).mtval = s.mtval := rfl
@[simp] theorem State.flushFetch_stval (s : State) : (s.flushFetch).stval = s.stval := rfl
@[simp] theorem State.flushFetch_medeleg (s : State) : (s.flushFetch).medeleg = s.medeleg := rfl
@[simp] theorem State.flushFetch_mideleg (s : State) : (s.flushFetch).mideleg = s.mideleg := rfl
@[simp] theorem State.flushFetch_mscratch (s : State) : (s.flushFetch).mscratch = s.mscratch := rfl
@[simp] theorem State.flushFetch_sscratch (s : State) : (s.flushFetch).sscratch = s.sscratch := rfl
@[simp] theorem State.flushFetch_satp (s : State) : (s.flushFetch).satp = s.satp := rfl
@[simp] theorem State.flushFetch_mcounteren (s : State) : (s.flushFetch).mcounteren = s.mcounteren := rfl
@[simp] theorem State.flushFetch_scounteren (s : State) : (s.flushFetch).scounteren = s.scounteren := rfl
@[simp] theorem State.flushFetch_mcycle (s : State) : (s.flushFetch).mcycle = s.mcycle := rfl
@[simp] theorem State.flushFetch_minstret (s : State) : (s.flushFetch).minstret = s.minstret := rfl
@[simp] theorem State.flushFetch_reservation (s : State) : (s.flushFetch).reservation = s.reservation := rfl
@[simp] theorem State.flushFetch_itlb (s : State) : (s.flushFetch).itlb = s.itlb := rfl
@[simp] theorem State.flushFetch_dtlb (s : State) : (s.flushFetch).dtlb = s.dtlb := rfl
@[simp] theorem State.flushFetch_extIrqM (s : State) : (s.flushFetch).extIrqM = s.extIrqM := rfl
@[simp] theorem State.flushFetch_extIrqS (s : State) : (s.flushFetch).extIrqS = s.extIrqS := rfl
@[simp] theorem State.flushFetch_msip (s : State) : (s.flushFetch).msip = s.msip := rfl
@[simp] theorem State.flushFetch_mtime (s : State) : (s.flushFetch).mtime = s.mtime := rfl
@[simp] theorem State.flushFetch_mtimecmp (s : State) : (s.flushFetch).mtimecmp = s.mtimecmp := rfl
@[simp] theorem State.flushFetch_mem (s : State) : (s.flushFetch).mem = s.mem := rfl
@[simp] theorem State.flushFetch_fetchWindow (s : State) : (s.flushFetch).fetchWindow = [] := rfl
@[simp] theorem State.flushFetch_itlbGhosts (s : State) : (s.flushFetch).itlbGhosts = [] := rfl
@[simp] theorem State.flushFetch_pcTrace (s : State) : (s.flushFetch).pcTrace = s.pcTrace := rfl
@[simp] theorem State.flushFetch_inputs (s : State) : (s.flushFetch).inputs = s.inputs := rfl
@[simp] theorem State.flushFetch_draws (s : State) : (s.flushFetch).draws = s.draws := rfl
@[simp] theorem State.flushFetch_config (s : State) : (s.flushFetch).config = s.config := rfl

/-! ### `jump` -/

@[simp] theorem State.jump_regs (s : State) (t : Word) : (s.jump t).regs = s.regs := rfl
@[simp] theorem State.jump_pc (s : State) (t : Word) : (s.jump t).pc = t := rfl
@[simp] theorem State.jump_priv (s : State) (t : Word) : (s.jump t).priv = s.priv := rfl
@[simp] theorem State.jump_mstatus (s : State) (t : Word) : (s.jump t).mstatus = s.mstatus := rfl
@[simp] theorem State.jump_mie (s : State) (t : Word) : (s.jump t).mie = s.mie := rfl
@[simp] theorem State.jump_mipSoft (s : State) (t : Word) : (s.jump t).mipSoft = s.mipSoft := rfl
@[simp] theorem State.jump_mtvec (s : State) (t : Word) : (s.jump t).mtvec = s.mtvec := rfl
@[simp] theorem State.jump_stvec (s : State) (t : Word) : (s.jump t).stvec = s.stvec := rfl
@[simp] theorem State.jump_mepc (s : State) (t : Word) : (s.jump t).mepc = s.mepc := rfl
@[simp] theorem State.jump_sepc (s : State) (t : Word) : (s.jump t).sepc = s.sepc := rfl
@[simp] theorem State.jump_mcause (s : State) (t : Word) : (s.jump t).mcause = s.mcause := rfl
@[simp] theorem State.jump_scause (s : State) (t : Word) : (s.jump t).scause = s.scause := rfl
@[simp] theorem State.jump_mtval (s : State) (t : Word) : (s.jump t).mtval = s.mtval := rfl
@[simp] theorem State.jump_stval (s : State) (t : Word) : (s.jump t).stval = s.stval := rfl
@[simp] theorem State.jump_medeleg (s : State) (t : Word) : (s.jump t).medeleg = s.medeleg := rfl
@[simp] theorem State.jump_mideleg (s : State) (t : Word) : (s.jump t).mideleg = s.mideleg := rfl
@[simp] theorem State.jump_mscratch (s : State) (t : Word) : (s.jump t).mscratch = s.mscratch := rfl
@[simp] theorem State.jump_sscratch (s : State) (t : Word) : (s.jump t).sscratch = s.sscratch := rfl
@[simp] theorem State.jump_satp (s : State) (t : Word) : (s.jump t).satp = s.satp := rfl
@[simp] theorem State.jump_mcounteren (s : State) (t : Word) : (s.jump t).mcounteren = s.mcounteren := rfl
@[simp] theorem State.jump_scounteren (s : State) (t : Word) : (s.jump t).scounteren = s.scounteren := rfl
@[simp] theorem State.jump_mcycle (s : State) (t : Word) : (s.jump t).mcycle = s.mcycle := rfl
@[simp] theorem State.jump_minstret (s : State) (t : Word) : (s.jump t).minstret = s.minstret + 1#64 := rfl
@[simp] theorem State.jump_reservation (s : State) (t : Word) : (s.jump t).reservation = s.reservation := rfl
@[simp] theorem State.jump_itlb (s : State) (t : Word) : (s.jump t).itlb = s.itlb := rfl
@[simp] theorem State.jump_dtlb (s : State) (t : Word) : (s.jump t).dtlb = s.dtlb := rfl
@[simp] theorem State.jump_extIrqM (s : State) (t : Word) : (s.jump t).extIrqM = s.extIrqM := rfl
@[simp] theorem State.jump_extIrqS (s : State) (t : Word) : (s.jump t).extIrqS = s.extIrqS := rfl
@[simp] theorem State.jump_msip (s : State) (t : Word) : (s.jump t).msip = s.msip := rfl
@[simp] theorem State.jump_mtime (s : State) (t : Word) : (s.jump t).mtime = s.mtime := rfl
@[simp] theorem State.jump_mtimecmp (s : State) (t : Word) : (s.jump t).mtimecmp = s.mtimecmp := rfl
@[simp] theorem State.jump_mem (s : State) (t : Word) : (s.jump t).mem = s.mem := rfl
@[simp] theorem State.jump_fetchWindow (s : State) (t : Word) : (s.jump t).fetchWindow = [] := rfl
@[simp] theorem State.jump_itlbGhosts (s : State) (t : Word) : (s.jump t).itlbGhosts = [] := rfl
@[simp] theorem State.jump_pcTrace (s : State) (t : Word) : (s.jump t).pcTrace = s.pc :: s.pcTrace := rfl
@[simp] theorem State.jump_inputs (s : State) (t : Word) : (s.jump t).inputs = s.inputs := rfl
@[simp] theorem State.jump_draws (s : State) (t : Word) : (s.jump t).draws = s.draws := rfl
@[simp] theorem State.jump_config (s : State) (t : Word) : (s.jump t).config = s.config := rfl

/-! ### `ageFetch` -/

@[simp] theorem State.ageFetch_regs (s : State) : (s.ageFetch).regs = s.regs := rfl
@[simp] theorem State.ageFetch_pc (s : State) : (s.ageFetch).pc = s.pc := rfl
@[simp] theorem State.ageFetch_priv (s : State) : (s.ageFetch).priv = s.priv := rfl
@[simp] theorem State.ageFetch_mstatus (s : State) : (s.ageFetch).mstatus = s.mstatus := rfl
@[simp] theorem State.ageFetch_mie (s : State) : (s.ageFetch).mie = s.mie := rfl
@[simp] theorem State.ageFetch_mipSoft (s : State) : (s.ageFetch).mipSoft = s.mipSoft := rfl
@[simp] theorem State.ageFetch_mtvec (s : State) : (s.ageFetch).mtvec = s.mtvec := rfl
@[simp] theorem State.ageFetch_stvec (s : State) : (s.ageFetch).stvec = s.stvec := rfl
@[simp] theorem State.ageFetch_mepc (s : State) : (s.ageFetch).mepc = s.mepc := rfl
@[simp] theorem State.ageFetch_sepc (s : State) : (s.ageFetch).sepc = s.sepc := rfl
@[simp] theorem State.ageFetch_mcause (s : State) : (s.ageFetch).mcause = s.mcause := rfl
@[simp] theorem State.ageFetch_scause (s : State) : (s.ageFetch).scause = s.scause := rfl
@[simp] theorem State.ageFetch_mtval (s : State) : (s.ageFetch).mtval = s.mtval := rfl
@[simp] theorem State.ageFetch_stval (s : State) : (s.ageFetch).stval = s.stval := rfl
@[simp] theorem State.ageFetch_medeleg (s : State) : (s.ageFetch).medeleg = s.medeleg := rfl
@[simp] theorem State.ageFetch_mideleg (s : State) : (s.ageFetch).mideleg = s.mideleg := rfl
@[simp] theorem State.ageFetch_mscratch (s : State) : (s.ageFetch).mscratch = s.mscratch := rfl
@[simp] theorem State.ageFetch_sscratch (s : State) : (s.ageFetch).sscratch = s.sscratch := rfl
@[simp] theorem State.ageFetch_satp (s : State) : (s.ageFetch).satp = s.satp := rfl
@[simp] theorem State.ageFetch_mcounteren (s : State) : (s.ageFetch).mcounteren = s.mcounteren := rfl
@[simp] theorem State.ageFetch_scounteren (s : State) : (s.ageFetch).scounteren = s.scounteren := rfl
@[simp] theorem State.ageFetch_mcycle (s : State) : (s.ageFetch).mcycle = s.mcycle := rfl
@[simp] theorem State.ageFetch_minstret (s : State) : (s.ageFetch).minstret = s.minstret := rfl
@[simp] theorem State.ageFetch_reservation (s : State) : (s.ageFetch).reservation = s.reservation := rfl
@[simp] theorem State.ageFetch_itlb (s : State) : (s.ageFetch).itlb = s.itlb := rfl
@[simp] theorem State.ageFetch_dtlb (s : State) : (s.ageFetch).dtlb = s.dtlb := rfl
@[simp] theorem State.ageFetch_extIrqM (s : State) : (s.ageFetch).extIrqM = s.extIrqM := rfl
@[simp] theorem State.ageFetch_extIrqS (s : State) : (s.ageFetch).extIrqS = s.extIrqS := rfl
@[simp] theorem State.ageFetch_msip (s : State) : (s.ageFetch).msip = s.msip := rfl
@[simp] theorem State.ageFetch_mtime (s : State) : (s.ageFetch).mtime = s.mtime := rfl
@[simp] theorem State.ageFetch_mtimecmp (s : State) : (s.ageFetch).mtimecmp = s.mtimecmp := rfl
@[simp] theorem State.ageFetch_mem (s : State) : (s.ageFetch).mem = s.mem := rfl
@[simp] theorem State.ageFetch_pcTrace (s : State) : (s.ageFetch).pcTrace = s.pcTrace := rfl
@[simp] theorem State.ageFetch_inputs (s : State) : (s.ageFetch).inputs = s.inputs := rfl
@[simp] theorem State.ageFetch_draws (s : State) : (s.ageFetch).draws = (if s.fetchWindow.isEmpty then s.draws else s.draws + 1) := rfl
@[simp] theorem State.ageFetch_config (s : State) : (s.ageFetch).config = s.config := rfl

/-! ### `noteStore` -/

@[simp] theorem State.noteStore_regs (s : State) (t : Target) (a n : Nat) : (s.noteStore t a n).regs = s.regs := rfl
@[simp] theorem State.noteStore_pc (s : State) (t : Target) (a n : Nat) : (s.noteStore t a n).pc = s.pc := rfl
@[simp] theorem State.noteStore_priv (s : State) (t : Target) (a n : Nat) : (s.noteStore t a n).priv = s.priv := rfl
@[simp] theorem State.noteStore_mstatus (s : State) (t : Target) (a n : Nat) :
    (s.noteStore t a n).mstatus = s.mstatus := rfl
@[simp] theorem State.noteStore_mie (s : State) (t : Target) (a n : Nat) : (s.noteStore t a n).mie = s.mie := rfl
@[simp] theorem State.noteStore_mipSoft (s : State) (t : Target) (a n : Nat) :
    (s.noteStore t a n).mipSoft = s.mipSoft := rfl
@[simp] theorem State.noteStore_mtvec (s : State) (t : Target) (a n : Nat) :
    (s.noteStore t a n).mtvec = s.mtvec := rfl
@[simp] theorem State.noteStore_stvec (s : State) (t : Target) (a n : Nat) :
    (s.noteStore t a n).stvec = s.stvec := rfl
@[simp] theorem State.noteStore_mepc (s : State) (t : Target) (a n : Nat) : (s.noteStore t a n).mepc = s.mepc := rfl
@[simp] theorem State.noteStore_sepc (s : State) (t : Target) (a n : Nat) : (s.noteStore t a n).sepc = s.sepc := rfl
@[simp] theorem State.noteStore_mcause (s : State) (t : Target) (a n : Nat) :
    (s.noteStore t a n).mcause = s.mcause := rfl
@[simp] theorem State.noteStore_scause (s : State) (t : Target) (a n : Nat) :
    (s.noteStore t a n).scause = s.scause := rfl
@[simp] theorem State.noteStore_mtval (s : State) (t : Target) (a n : Nat) :
    (s.noteStore t a n).mtval = s.mtval := rfl
@[simp] theorem State.noteStore_stval (s : State) (t : Target) (a n : Nat) :
    (s.noteStore t a n).stval = s.stval := rfl
@[simp] theorem State.noteStore_medeleg (s : State) (t : Target) (a n : Nat) :
    (s.noteStore t a n).medeleg = s.medeleg := rfl
@[simp] theorem State.noteStore_mideleg (s : State) (t : Target) (a n : Nat) :
    (s.noteStore t a n).mideleg = s.mideleg := rfl
@[simp] theorem State.noteStore_mscratch (s : State) (t : Target) (a n : Nat) :
    (s.noteStore t a n).mscratch = s.mscratch := rfl
@[simp] theorem State.noteStore_sscratch (s : State) (t : Target) (a n : Nat) :
    (s.noteStore t a n).sscratch = s.sscratch := rfl
@[simp] theorem State.noteStore_satp (s : State) (t : Target) (a n : Nat) : (s.noteStore t a n).satp = s.satp := rfl
@[simp] theorem State.noteStore_mcounteren (s : State) (t : Target) (a n : Nat) :
    (s.noteStore t a n).mcounteren = s.mcounteren := rfl
@[simp] theorem State.noteStore_scounteren (s : State) (t : Target) (a n : Nat) :
    (s.noteStore t a n).scounteren = s.scounteren := rfl
@[simp] theorem State.noteStore_mcycle (s : State) (t : Target) (a n : Nat) :
    (s.noteStore t a n).mcycle = s.mcycle := rfl
@[simp] theorem State.noteStore_minstret (s : State) (t : Target) (a n : Nat) :
    (s.noteStore t a n).minstret = s.minstret := rfl
@[simp] theorem State.noteStore_reservation (s : State) (t : Target) (a n : Nat) :
    (s.noteStore t a n).reservation = s.reservation := rfl
@[simp] theorem State.noteStore_itlb (s : State) (t : Target) (a n : Nat) : (s.noteStore t a n).itlb = s.itlb := rfl
@[simp] theorem State.noteStore_dtlb (s : State) (t : Target) (a n : Nat) : (s.noteStore t a n).dtlb = s.dtlb := rfl
@[simp] theorem State.noteStore_extIrqM (s : State) (t : Target) (a n : Nat) :
    (s.noteStore t a n).extIrqM = s.extIrqM := rfl
@[simp] theorem State.noteStore_extIrqS (s : State) (t : Target) (a n : Nat) :
    (s.noteStore t a n).extIrqS = s.extIrqS := rfl
@[simp] theorem State.noteStore_msip (s : State) (t : Target) (a n : Nat) : (s.noteStore t a n).msip = s.msip := rfl
@[simp] theorem State.noteStore_mtime (s : State) (t : Target) (a n : Nat) :
    (s.noteStore t a n).mtime = s.mtime := rfl
@[simp] theorem State.noteStore_mtimecmp (s : State) (t : Target) (a n : Nat) :
    (s.noteStore t a n).mtimecmp = s.mtimecmp := rfl
@[simp] theorem State.noteStore_mem (s : State) (t : Target) (a n : Nat) : (s.noteStore t a n).mem = s.mem := rfl
@[simp] theorem State.noteStore_fetchWindow (s : State) (t : Target) (a n : Nat) :
    (s.noteStore t a n).fetchWindow = if t = .memory then staleBytes s.mem a n ++ s.fetchWindow else s.fetchWindow := rfl
@[simp] theorem State.noteStore_itlbGhosts (s : State) (t : Target) (a n : Nat) :
    (s.noteStore t a n).itlbGhosts = s.itlbGhosts := rfl
@[simp] theorem State.noteStore_pcTrace (s : State) (t : Target) (a n : Nat) :
    (s.noteStore t a n).pcTrace = s.pcTrace := rfl
@[simp] theorem State.noteStore_inputs (s : State) (t : Target) (a n : Nat) :
    (s.noteStore t a n).inputs = s.inputs := rfl
@[simp] theorem State.noteStore_draws (s : State) (t : Target) (a n : Nat) :
    (s.noteStore t a n).draws = s.draws := rfl
@[simp] theorem State.noteStore_config (s : State) (t : Target) (a n : Nat) :
    (s.noteStore t a n).config = s.config := rfl

/-! ### `dropReservation` -/

@[simp] theorem State.dropReservation_regs (s : State) : (s.dropReservation).regs = s.regs := rfl
@[simp] theorem State.dropReservation_pc (s : State) : (s.dropReservation).pc = s.pc := rfl
@[simp] theorem State.dropReservation_priv (s : State) : (s.dropReservation).priv = s.priv := rfl
@[simp] theorem State.dropReservation_mstatus (s : State) : (s.dropReservation).mstatus = s.mstatus := rfl
@[simp] theorem State.dropReservation_mie (s : State) : (s.dropReservation).mie = s.mie := rfl
@[simp] theorem State.dropReservation_mipSoft (s : State) : (s.dropReservation).mipSoft = s.mipSoft := rfl
@[simp] theorem State.dropReservation_mtvec (s : State) : (s.dropReservation).mtvec = s.mtvec := rfl
@[simp] theorem State.dropReservation_stvec (s : State) : (s.dropReservation).stvec = s.stvec := rfl
@[simp] theorem State.dropReservation_mepc (s : State) : (s.dropReservation).mepc = s.mepc := rfl
@[simp] theorem State.dropReservation_sepc (s : State) : (s.dropReservation).sepc = s.sepc := rfl
@[simp] theorem State.dropReservation_mcause (s : State) : (s.dropReservation).mcause = s.mcause := rfl
@[simp] theorem State.dropReservation_scause (s : State) : (s.dropReservation).scause = s.scause := rfl
@[simp] theorem State.dropReservation_mtval (s : State) : (s.dropReservation).mtval = s.mtval := rfl
@[simp] theorem State.dropReservation_stval (s : State) : (s.dropReservation).stval = s.stval := rfl
@[simp] theorem State.dropReservation_medeleg (s : State) : (s.dropReservation).medeleg = s.medeleg := rfl
@[simp] theorem State.dropReservation_mideleg (s : State) : (s.dropReservation).mideleg = s.mideleg := rfl
@[simp] theorem State.dropReservation_mscratch (s : State) : (s.dropReservation).mscratch = s.mscratch := rfl
@[simp] theorem State.dropReservation_sscratch (s : State) : (s.dropReservation).sscratch = s.sscratch := rfl
@[simp] theorem State.dropReservation_satp (s : State) : (s.dropReservation).satp = s.satp := rfl
@[simp] theorem State.dropReservation_mcounteren (s : State) : (s.dropReservation).mcounteren = s.mcounteren := rfl
@[simp] theorem State.dropReservation_scounteren (s : State) : (s.dropReservation).scounteren = s.scounteren := rfl
@[simp] theorem State.dropReservation_mcycle (s : State) : (s.dropReservation).mcycle = s.mcycle := rfl
@[simp] theorem State.dropReservation_minstret (s : State) : (s.dropReservation).minstret = s.minstret := rfl
@[simp] theorem State.dropReservation_reservation (s : State) :
    (s.dropReservation).reservation = { s.reservation with valid := false } := rfl
@[simp] theorem State.dropReservation_itlb (s : State) : (s.dropReservation).itlb = s.itlb := rfl
@[simp] theorem State.dropReservation_dtlb (s : State) : (s.dropReservation).dtlb = s.dtlb := rfl
@[simp] theorem State.dropReservation_extIrqM (s : State) : (s.dropReservation).extIrqM = s.extIrqM := rfl
@[simp] theorem State.dropReservation_extIrqS (s : State) : (s.dropReservation).extIrqS = s.extIrqS := rfl
@[simp] theorem State.dropReservation_msip (s : State) : (s.dropReservation).msip = s.msip := rfl
@[simp] theorem State.dropReservation_mtime (s : State) : (s.dropReservation).mtime = s.mtime := rfl
@[simp] theorem State.dropReservation_mtimecmp (s : State) : (s.dropReservation).mtimecmp = s.mtimecmp := rfl
@[simp] theorem State.dropReservation_mem (s : State) : (s.dropReservation).mem = s.mem := rfl
@[simp] theorem State.dropReservation_fetchWindow (s : State) : (s.dropReservation).fetchWindow = s.fetchWindow := rfl
@[simp] theorem State.dropReservation_itlbGhosts (s : State) : (s.dropReservation).itlbGhosts = s.itlbGhosts := rfl
@[simp] theorem State.dropReservation_pcTrace (s : State) : (s.dropReservation).pcTrace = s.pcTrace := rfl
@[simp] theorem State.dropReservation_inputs (s : State) : (s.dropReservation).inputs = s.inputs := rfl
@[simp] theorem State.dropReservation_draws (s : State) : (s.dropReservation).draws = s.draws := rfl
@[simp] theorem State.dropReservation_config (s : State) : (s.dropReservation).config = s.config := rfl

/-! ### `setTlb` -/

@[simp] theorem State.setTlb_regs (s : State) (k : AccessKind) (t : List TlbEntry) :
    (s.setTlb k t).regs = s.regs := rfl
@[simp] theorem State.setTlb_pc (s : State) (k : AccessKind) (t : List TlbEntry) : (s.setTlb k t).pc = s.pc := rfl
@[simp] theorem State.setTlb_priv (s : State) (k : AccessKind) (t : List TlbEntry) :
    (s.setTlb k t).priv = s.priv := rfl
@[simp] theorem State.setTlb_mstatus (s : State) (k : AccessKind) (t : List TlbEntry) :
    (s.setTlb k t).mstatus = s.mstatus := rfl
@[simp] theorem State.setTlb_mie (s : State) (k : AccessKind) (t : List TlbEntry) : (s.setTlb k t).mie = s.mie := rfl
@[simp] theorem State.setTlb_mipSoft (s : State) (k : AccessKind) (t : List TlbEntry) :
    (s.setTlb k t).mipSoft = s.mipSoft := rfl
@[simp] theorem State.setTlb_mtvec (s : State) (k : AccessKind) (t : List TlbEntry) :
    (s.setTlb k t).mtvec = s.mtvec := rfl
@[simp] theorem State.setTlb_stvec (s : State) (k : AccessKind) (t : List TlbEntry) :
    (s.setTlb k t).stvec = s.stvec := rfl
@[simp] theorem State.setTlb_mepc (s : State) (k : AccessKind) (t : List TlbEntry) :
    (s.setTlb k t).mepc = s.mepc := rfl
@[simp] theorem State.setTlb_sepc (s : State) (k : AccessKind) (t : List TlbEntry) :
    (s.setTlb k t).sepc = s.sepc := rfl
@[simp] theorem State.setTlb_mcause (s : State) (k : AccessKind) (t : List TlbEntry) :
    (s.setTlb k t).mcause = s.mcause := rfl
@[simp] theorem State.setTlb_scause (s : State) (k : AccessKind) (t : List TlbEntry) :
    (s.setTlb k t).scause = s.scause := rfl
@[simp] theorem State.setTlb_mtval (s : State) (k : AccessKind) (t : List TlbEntry) :
    (s.setTlb k t).mtval = s.mtval := rfl
@[simp] theorem State.setTlb_stval (s : State) (k : AccessKind) (t : List TlbEntry) :
    (s.setTlb k t).stval = s.stval := rfl
@[simp] theorem State.setTlb_medeleg (s : State) (k : AccessKind) (t : List TlbEntry) :
    (s.setTlb k t).medeleg = s.medeleg := rfl
@[simp] theorem State.setTlb_mideleg (s : State) (k : AccessKind) (t : List TlbEntry) :
    (s.setTlb k t).mideleg = s.mideleg := rfl
@[simp] theorem State.setTlb_mscratch (s : State) (k : AccessKind) (t : List TlbEntry) :
    (s.setTlb k t).mscratch = s.mscratch := rfl
@[simp] theorem State.setTlb_sscratch (s : State) (k : AccessKind) (t : List TlbEntry) :
    (s.setTlb k t).sscratch = s.sscratch := rfl
@[simp] theorem State.setTlb_satp (s : State) (k : AccessKind) (t : List TlbEntry) :
    (s.setTlb k t).satp = s.satp := rfl
@[simp] theorem State.setTlb_mcounteren (s : State) (k : AccessKind) (t : List TlbEntry) :
    (s.setTlb k t).mcounteren = s.mcounteren := rfl
@[simp] theorem State.setTlb_scounteren (s : State) (k : AccessKind) (t : List TlbEntry) :
    (s.setTlb k t).scounteren = s.scounteren := rfl
@[simp] theorem State.setTlb_mcycle (s : State) (k : AccessKind) (t : List TlbEntry) :
    (s.setTlb k t).mcycle = s.mcycle := rfl
@[simp] theorem State.setTlb_minstret (s : State) (k : AccessKind) (t : List TlbEntry) :
    (s.setTlb k t).minstret = s.minstret := rfl
@[simp] theorem State.setTlb_reservation (s : State) (k : AccessKind) (t : List TlbEntry) :
    (s.setTlb k t).reservation = s.reservation := rfl
@[simp] theorem State.setTlb_itlb (s : State) (k : AccessKind) (t : List TlbEntry) :
    (s.setTlb k t).itlb = if k = .fetch then t else s.itlb := rfl
@[simp] theorem State.setTlb_dtlb (s : State) (k : AccessKind) (t : List TlbEntry) :
    (s.setTlb k t).dtlb = if k = .fetch then s.dtlb else t := rfl
@[simp] theorem State.setTlb_extIrqM (s : State) (k : AccessKind) (t : List TlbEntry) :
    (s.setTlb k t).extIrqM = s.extIrqM := rfl
@[simp] theorem State.setTlb_extIrqS (s : State) (k : AccessKind) (t : List TlbEntry) :
    (s.setTlb k t).extIrqS = s.extIrqS := rfl
@[simp] theorem State.setTlb_msip (s : State) (k : AccessKind) (t : List TlbEntry) :
    (s.setTlb k t).msip = s.msip := rfl
@[simp] theorem State.setTlb_mtime (s : State) (k : AccessKind) (t : List TlbEntry) :
    (s.setTlb k t).mtime = s.mtime := rfl
@[simp] theorem State.setTlb_mtimecmp (s : State) (k : AccessKind) (t : List TlbEntry) :
    (s.setTlb k t).mtimecmp = s.mtimecmp := rfl
@[simp] theorem State.setTlb_mem (s : State) (k : AccessKind) (t : List TlbEntry) : (s.setTlb k t).mem = s.mem := rfl
@[simp] theorem State.setTlb_fetchWindow (s : State) (k : AccessKind) (t : List TlbEntry) :
    (s.setTlb k t).fetchWindow = s.fetchWindow := rfl
@[simp] theorem State.setTlb_itlbGhosts (s : State) (k : AccessKind) (t : List TlbEntry) :
    (s.setTlb k t).itlbGhosts = s.itlbGhosts := rfl
@[simp] theorem State.setTlb_pcTrace (s : State) (k : AccessKind) (t : List TlbEntry) :
    (s.setTlb k t).pcTrace = s.pcTrace := rfl
@[simp] theorem State.setTlb_inputs (s : State) (k : AccessKind) (t : List TlbEntry) :
    (s.setTlb k t).inputs = s.inputs := rfl
@[simp] theorem State.setTlb_draws (s : State) (k : AccessKind) (t : List TlbEntry) :
    (s.setTlb k t).draws = s.draws := rfl
@[simp] theorem State.setTlb_config (s : State) (k : AccessKind) (t : List TlbEntry) :
    (s.setTlb k t).config = s.config := rfl

end Sys2Proof.Machine
end

