-- ==== Sys2Proof/Laws/Memory.lean ====
section
/-! SUPPORT. The laws of physical memory: read after write, and the canonical form. -/

namespace Sys2Proof.Machine

/-- Reading after writing one byte. -/
theorem Memory.read_write (m : Memory) (a b : Nat) (v : Byte) (h : m.Pairwise (fun c d => c.1 < d.1)) :
    Memory.read (Memory.write m a v) b = if b = a then v else m.read b := by
  induction m with
  | nil =>
    unfold Memory.write
    split
    · next hv => simp [Memory.read, hv]
    · simp [Memory.read]
  | cons c m ih =>
    obtain ⟨k, w⟩ := c
    obtain ⟨hk, hm⟩ := List.pairwise_cons.1 h
    have below : ∀ x, x ≤ k → Memory.read m x = unlistedByte := by
      intro x hx
      clear ih h
      induction m with
      | nil => rfl
      | cons d m ih2 =>
        obtain ⟨k2, w2⟩ := d
        have h1 : k < k2 := hk (k2, w2) (by simp)
        rw [Memory.read, if_neg (by omega)]
        exact ih2 (fun e he => hk e (by simp [he])) (List.pairwise_cons.1 hm).2
    unfold Memory.write
    split
    · split
      · next hlt hv =>
        by_cases hb : b = a
        · subst hb
          rw [Memory.read, if_neg (by omega), below _ (by omega)]; simp [hv]
        · simp [hb]
      · by_cases hb : b = a <;> simp [Memory.read, hb]
    · split
      · next hak =>
        subst hak
        split
        · next hv =>
          by_cases hb : b = a
          · subst hb; rw [below _ (le_refl _)]; simp [hv]
          · simp [Memory.read, hb]
        · by_cases hb : b = a <;> simp [Memory.read, hb]
      · next hka =>
        simp only [Memory.read, ih hm]
        by_cases hb : b = a
        · subst hb; simp [hka]
        · simp [hb]

/-- Writing a byte keeps the addresses strictly rising above any bound they were above. -/
theorem Memory.write_above (m : Memory) (a : Nat) (v : Byte) (k : Nat) (ha : k < a)
    (h : ∀ c ∈ m, k < c.1) : ∀ c ∈ Memory.write m a v, k < c.1 := by
  induction m with
  | nil => intro c hc; unfold Memory.write at hc; split at hc <;> simp at hc; subst hc; exact ha
  | cons d m ih =>
    obtain ⟨b, w⟩ := d
    have hb : k < b := h (b, w) (by simp)
    have hm : ∀ c ∈ m, k < c.1 := fun c hc => h c (by simp [hc])
    intro c hc
    unfold Memory.write at hc
    split at hc
    · split at hc
      · exact h c hc
      · rcases List.mem_cons.1 hc with rfl | hc
        · exact ha
        · exact h c hc
    · split at hc
      · split at hc
        · exact hm c hc
        · rcases List.mem_cons.1 hc with rfl | hc
          · exact ha
          · exact hm c hc
      · rcases List.mem_cons.1 hc with rfl | hc
        · exact hb
        · exact ih hm c hc

/-- Writing a byte keeps the canonical form. -/
theorem Memory.write_wf (m : Memory) (a : Nat) (v : Byte) (h : Memory.wf m) : Memory.wf (Memory.write m a v) := by
  obtain ⟨hp, hv⟩ := h
  induction m with
  | nil =>
    unfold Memory.write
    split
    · exact ⟨hp, hv⟩
    · next hne => exact ⟨by simp, by simpa using hne⟩
  | cons d m ih =>
    obtain ⟨b, w⟩ := d
    obtain ⟨hb, hm⟩ := List.pairwise_cons.1 hp
    have hvm : ∀ c ∈ m, c.2 ≠ unlistedByte := fun c hc => hv c (by simp [hc])
    unfold Memory.write
    split
    · next hlt =>
      split
      · exact ⟨hp, hv⟩
      · next hne =>
        refine ⟨List.pairwise_cons.2 ⟨?_, hp⟩, ?_⟩
        · intro c hc
          rcases List.mem_cons.1 hc with rfl | hc
          · exact hlt
          · exact Nat.lt_trans hlt (hb c hc)
        · intro c hc
          rcases List.mem_cons.1 hc with rfl | hc
          · exact hne
          · exact hv c hc
    · split
      · next hlt hab =>
        subst hab
        split
        · exact ⟨hm, hvm⟩
        · next hne =>
          refine ⟨List.pairwise_cons.2 ⟨hb, hm⟩, ?_⟩
          intro c hc
          rcases List.mem_cons.1 hc with rfl | hc
          · exact hne
          · exact hvm c hc
      · next hlt hab =>
        obtain ⟨h1, h2⟩ := ih hm hvm
        refine ⟨List.pairwise_cons.2 ⟨Memory.write_above m a v b (by omega) hb, h1⟩, ?_⟩
        intro c hc
        rcases List.mem_cons.1 hc with rfl | hc
        · exact hv (b, w) (by simp)
        · exact h2 c hc

/-- Writing bytes keeps the canonical form. -/
theorem Memory.writeBytes_wf (m : Memory) (a : Nat) (vs : List Byte) (h : Memory.wf m) :
    Memory.wf (m.writeBytes a vs) := by
  induction vs generalizing m a with
  | nil => exact h
  | cons v vs ih => exact ih _ _ (Memory.write_wf m a v h)

/-- A store keeps the canonical form. -/
theorem Memory.store_wf (m : Memory) (a : Nat) (w : Width) (v : Word) (h : Memory.wf m) :
    Memory.wf (m.store a w v) := Memory.writeBytes_wf m a _ h

/-- Reading after writing bytes. -/
theorem Memory.read_writeBytes (m : Memory) (a b : Nat) (vs : List Byte) (h : Memory.wf m) :
    (m.writeBytes a vs).read b = if a ≤ b ∧ b < a + vs.length then vs.getD (b - a) 0#8 else m.read b := by
  induction vs generalizing m a with
  | nil => simp [Memory.writeBytes]
  | cons v vs ih =>
    rw [Memory.writeBytes, ih _ _ (Memory.write_wf m a v h), Memory.read_write _ _ _ _ h.1]
    by_cases h1 : b = a
    · subst h1
      rw [if_neg (by omega), if_pos rfl, if_pos (by simp)]; simp
    · by_cases h2 : a + 1 ≤ b ∧ b < a + 1 + vs.length
      · rw [if_pos h2, if_pos (by simp; omega)]
        obtain ⟨n, rfl⟩ : ∃ n, b = a + 1 + n := ⟨b - (a + 1), by omega⟩
        simp [show a + 1 + n - a = n + 1 by omega]
      · rw [if_neg h2, if_neg h1, if_neg (by simp; omega)]

theorem storedBytes_length (w : Width) (v : Word) : (storedBytes w v).length = w.bytes := by
  cases w <;> rfl

/-- Every byte outside a store reads as before. -/
theorem Memory.read_store_outside (m : Memory) (a b : Nat) (w : Width) (v : Word) (h : Memory.wf m)
    (ho : b < a ∨ a + w.bytes ≤ b) : (m.store a w v).read b = m.read b := by
  rw [Memory.store, Memory.read_writeBytes _ _ _ _ h, if_neg (by rw [storedBytes_length]; omega)]

/-- Byte `i` of a store reads as byte `i` of the stored value. -/
theorem Memory.read_store_inside (m : Memory) (a i : Nat) (w : Width) (v : Word) (h : Memory.wf m)
    (hi : i < w.bytes) : (m.store a w v).read (a + i) = v.extractLsb' (8 * i) 8 := by
  rw [Memory.store, Memory.read_writeBytes _ _ _ _ h, if_pos (by rw [storedBytes_length]; omega),
    Nat.add_sub_cancel_left]
  cases w
  · obtain rfl : i = 0 := by simp [Width.bytes] at hi; omega
    rfl
  · simp only [Width.bytes] at hi
    interval_cases i <;> rfl
  · simp only [Width.bytes] at hi
    interval_cases i <;> rfl

/-- A store read back with its own width. -/
theorem Memory.load_store (m : Memory) (a : Nat) (w : Width) (v : Word) (h : Memory.wf m) :
    (m.store a w v).load a w = (match w with
      | .byte => (v.setWidth 8).setWidth 32
      | .half => (v.setWidth 16).setWidth 32
      | .word => v) := by
  have r := fun i hi => Memory.read_store_inside m a i w v h hi
  cases w
  · have r0 := r 0 (by decide)
    simp only [Nat.add_zero] at r0
    simp only [Memory.load, r0]
    ext i hi; simp
  · have r0 := r 0 (by decide)
    have r1 := r 1 (by decide)
    simp only [Nat.add_zero] at r0
    simp only [Memory.load, r0, r1]
    ext i hi
    simp only [BitVec.getElem_setWidth, BitVec.getLsbD_append, BitVec.getLsbD_extractLsb', BitVec.getLsbD_setWidth]
    by_cases h8 : i < 8
    · simp [h8]; intro; omega
    · simp [h8]
      by_cases h16 : i < 16
      · have : i - 8 < 8 := by omega
        simp [this, h16, show 8 + (i - 8) = i by omega]
      · have : ¬ i - 8 < 8 := by omega
        simp [this, h16]
  · have r0 := r 0 (by decide)
    have r1 := r 1 (by decide)
    have r2 := r 2 (by decide)
    have r3 := r 3 (by decide)
    simp only [Nat.add_zero] at r0
    simp only [Memory.load, wordOfBytes, r0, r1, r2, r3]
    ext i hi
    simp only [BitVec.getElem_eq_testBit_toNat]
    simp only [BitVec.testBit_toNat, BitVec.getLsbD_append, BitVec.getLsbD_extractLsb']
    by_cases h8 : i < 8
    · simp [h8]
    · by_cases h16 : i < 16
      · have : i - 8 < 8 := by omega
        simp [h8, this, show 8 + (i - 8) = i by omega]
      · by_cases h24 : i < 24
        · have h1 : ¬ i - 8 < 8 := by omega
          have h2 : i - 8 - 8 < 8 := by omega
          simp [h8, h1, h2, show 16 + (i - 8 - 8) = i by omega]
        · have h1 : ¬ i - 8 < 8 := by omega
          have h2 : ¬ i - 8 - 8 < 8 := by omega
          have h3 : i - 8 - 8 - 8 < 8 := by omega
          simp [h8, h1, h2, h3, show 24 + (i - 8 - 8 - 8) = i by omega]

end Sys2Proof.Machine
end

