-- ==== Sys2Proof/Laws/Access.lean ====
section
/-! SUPPORT. Everything a memory access can do to the state: one lemma per operation, cited instead of unfolding. -/

namespace Sys2Proof.Machine

/-- Bounds of the fetch window alone. -/
def windowBounded (w : List StaleByte) : Prop := ∀ b ∈ w, 0 < b.fetches ∧ b.fetches ≤ fetchAhead

/-- What the accesses of one instruction may change, and how. -/
structure Effects (s t : State) : Prop where
  same : t = { s with itlb := t.itlb, dtlb := t.dtlb, mem := t.mem, fetchWindow := t.fetchWindow,
                      reservation := t.reservation, draws := t.draws, msip := t.msip, mtime := t.mtime,
                      mtimecmp := t.mtimecmp }
  mem : Memory.wf s.mem → Memory.wf t.mem
  addr : t.reservation.addr = s.reservation.addr
  valid : t.reservation.valid = true → s.reservation.valid = true
  itlb : s.itlb.length ≤ s.config.itlbEntries → t.itlb.length ≤ s.config.itlbEntries
  dtlb : s.dtlb.length ≤ s.config.dtlbEntries → t.dtlb.length ≤ s.config.dtlbEntries
  window : windowBounded s.fetchWindow → windowBounded t.fetchWindow

theorem Effects.refl (s : State) : Effects s s := ⟨rfl, id, rfl, id, id, id, id⟩

theorem Effects.config {s t : State} (h : Effects s t) : t.config = s.config := by rw [h.same]

theorem Effects.trans {s t u : State} (h : Effects s t) (g : Effects t u) : Effects s u where
  same := by rw [g.same, h.same]
  mem := fun m => g.mem (h.mem m)
  addr := g.addr.trans h.addr
  valid := fun v => h.valid (g.valid v)
  itlb := fun l => by have := g.itlb; rw [h.config] at this; exact this (h.itlb l)
  dtlb := fun l => by have := g.dtlb; rw [h.config] at this; exact this (h.dtlb l)
  window := fun w => g.window (h.window w)

/-- Every state an access ends in, completed or raising, satisfies `P`. -/
def Access.leaves {α : Type} (a : Access α) (P : State → Prop) : Prop :=
  match a with
  | .done _ s => P s
  | .raise _ s => P s
  | .refused _ => True

theorem Access.bind_leaves {α β : Type} {a : Access α} {f : α → State → Access β} {P : State → Prop}
    (ha : a.leaves P) (hf : ∀ v s, P s → (f v s).leaves P) : (a.bind f).leaves P := by
  cases a with
  | done v s => exact hf v s ha
  | raise e s => exact ha
  | refused r => trivial

/-- Peel the completed case of a bind. -/
theorem Access.bind_done {α β : Type} {a : Access α} {f : α → State → Access β} {v : β} {t : State}
    (h : a.bind f = .done v t) : ∃ u s, a = .done u s ∧ f u s = .done v t := by
  cases a with
  | done u s => exact ⟨u, s, rfl, h⟩
  | raise e s => cases h
  | refused r => cases h

/-! ### The TLBs -/

theorem State.setTlb_effects (s : State) (k : AccessKind) (l : List TlbEntry)
    (h : (s.tlb k).length ≤ tlbSize s.config k → l.length ≤ tlbSize s.config k) : Effects s (s.setTlb k l) where
  same := rfl
  mem := id
  addr := rfl
  valid := id
  itlb := fun g => by
    by_cases hk : k = .fetch
    · simpa [State.setTlb, State.tlb, tlbSize, hk] using h (by simpa [State.tlb, tlbSize, hk] using g)
    · simpa [State.setTlb, hk] using g
  dtlb := fun g => by
    by_cases hk : k = .fetch
    · simpa [State.setTlb, hk] using g
    · simpa [State.setTlb, State.tlb, tlbSize, hk] using h (by simpa [State.tlb, tlbSize, hk] using g)
  window := id

theorem State.dropTlbEntries_effects (s : State) (k : AccessKind) : Effects s (s.dropTlbEntries k) :=
  s.setTlb_effects k _ fun h => Nat.le_trans (List.length_filter_le _ _) h

theorem State.forgetTlbEntry_effects (s : State) (k : AccessKind) (e : TlbEntry) :
    Effects s (s.forgetTlbEntry k e) :=
  s.setTlb_effects k _ fun h => Nat.le_trans List.length_erase_le h

theorem State.fillTlb_effects (s : State) (k : AccessKind) (va pte : Word) (l : Level) (n : Nat) :
    Effects s (s.fillTlb k va pte l n) :=
  s.setTlb_effects k _ fun _ => List.length_take_le _ _

theorem State.draw_effects (s : State) (n : Nat) : Effects s { s with draws := n } :=
  ⟨rfl, id, rfl, id, id, id, id⟩

/-! ### Physical writes -/

theorem reservationAfterOwnWrite_addr (c : Config) (r : Reservation) (a n : Nat) :
    (reservationAfterOwnWrite c r a n).addr = r.addr := by
  unfold reservationAfterOwnWrite; split <;> rfl

theorem reservationAfterOwnWrite_valid (c : Config) (r : Reservation) (a n : Nat)
    (h : (reservationAfterOwnWrite c r a n).valid = true) : r.valid = true := by
  unfold reservationAfterOwnWrite at h; split at h
  · simp at h
  · exact h

theorem physWrite_effects {s t : State} {g : Target} {pa : PAddr} {w : Width} {v : Word}
    (h : physWrite s g pa w v = some t) : Effects s t := by
  cases g with
  | memory =>
    simp only [physWrite, Option.some.injEq] at h
    subst h
    exact ⟨rfl, fun m => Memory.store_wf _ _ _ _ m, reservationAfterOwnWrite_addr _ _ _ _,
      reservationAfterOwnWrite_valid _ _ _ _, id, id, id⟩
  | clint r =>
    simp only [physWrite, Option.some.injEq] at h
    subst h
    cases r <;> exact ⟨rfl, id, reservationAfterOwnWrite_addr _ _ _ _,
      reservationAfterOwnWrite_valid _ _ _ _, id, id, id⟩
  | device => cases h

theorem staleBytes_bounded (m : Memory) (a n : Nat) : windowBounded (staleBytes m a n) := by
  intro b hb
  simp only [staleBytes, List.mem_map] at hb
  obtain ⟨i, _, rfl⟩ := hb
  exact ⟨by simp [fetchAhead], Nat.le_refl _⟩

theorem State.noteStore_effects (s : State) (g : Target) (a n : Nat) : Effects s (s.noteStore g a n) where
  same := rfl
  mem := id
  addr := rfl
  valid := id
  itlb := id
  dtlb := id
  window := fun h => by
    rw [State.noteStore_fetchWindow]
    split
    · intro b hb
      rcases List.mem_append.1 hb with hb | hb
      · exact staleBytes_bounded _ _ _ b hb
      · exact h b hb
    · exact h

/-! ### Translation -/

theorem translateByWalk_effects (s : State) (va : Word) (k : AccessKind) (n : Nat) :
    (translateByWalk s va k n).leaves (Effects s) := by
  unfold translateByWalk
  split
  · trivial
  · exact Effects.refl s
  · exact Effects.refl s
  · split
    · exact Effects.refl s
    · split
      · split
        · exact Effects.refl s
        · split
          · trivial
          · next h => exact (physWrite_effects h).trans (State.fillTlb_effects _ _ _ _ _ _)
      · exact State.fillTlb_effects _ _ _ _ _ _

theorem translateSv32_effects (s : State) (va : Word) (k : AccessKind) :
    (translateSv32 s va k).leaves (Effects s) := by
  have h1 : Effects s { s.dropTlbEntries k with draws := s.draws + 1 } :=
    (s.dropTlbEntries_effects k).trans (State.draw_effects _ _)
  have walkFrom : ∀ u, Effects s u → (translateByWalk u va k s.draws).leaves (Effects s) := by
    intro u hu
    have := translateByWalk_effects u va k s.draws
    revert this
    cases translateByWalk u va k s.draws with
    | done v t => exact fun g => hu.trans g
    | raise e t => exact fun g => hu.trans g
    | refused r => exact fun _ => trivial
  unfold translateSv32
  simp only
  split
  · exact walkFrom _ h1
  · split
    · split
      · exact h1
      · exact walkFrom _ (h1.trans (State.forgetTlbEntry_effects _ _ _))
    · split
      · exact walkFrom _ (h1.trans (State.forgetTlbEntry_effects _ _ _))
      · exact h1

/-- Everything a translation can do to the state. -/
theorem translate_effects (s : State) (va : Word) (k : AccessKind) : (translate s va k).leaves (Effects s) := by
  unfold translate
  split
  · exact translateSv32_effects s va k
  · exact Effects.refl s

/-- With translation off the address is the physical address, and nothing changes (20_memory.md R131). -/
theorem translate_off {s : State} (h : s.translates = false) (va : Word) (k : AccessKind) :
    translate s va k = .done (va.setWidth 34) s := by
  simp [translate, h]

theorem leafAddress_low (pte va : Word) (l : Level) : (leafAddress pte va l).extractLsb' 0 12 = va.extractLsb' 0 12 := by
  cases l <;>
  · ext i hi
    simp only [leafAddress, BitVec.getElem_eq_testBit_toNat, BitVec.testBit_toNat, BitVec.getLsbD_extractLsb',
      BitVec.getLsbD_append]
    simp [show i < 22 by omega, hi]

/-- A translation keeps the offset within the page. -/
theorem translate_low {s s1 : State} {va : Word} {k : AccessKind} {pa : PAddr}
    (h : translate s va k = .done pa s1) : pa.extractLsb' 0 12 = va.extractLsb' 0 12 := by
  have byWalk : ∀ u n, translateByWalk u va k n = .done pa s1 → pa.extractLsb' 0 12 = va.extractLsb' 0 12 := by
    intro u n h
    unfold translateByWalk at h
    split at h <;> try cases h
    split at h <;> try cases h
    split at h
    · split at h <;> try cases h
      split at h <;> try cases h
      exact leafAddress_low _ _ _
    · cases h; exact leafAddress_low _ _ _
  unfold translate at h
  split at h
  · unfold translateSv32 at h
    simp only at h
    split at h
    · exact byWalk _ _ h
    · split at h
      · split at h
        · cases h
        · exact byWalk _ _ h
      · split at h
        · exact byWalk _ _ h
        · cases h; exact leafAddress_low _ _ _
  · cases h
    ext i hi
    simp [BitVec.getElem_extractLsb', show i < 34 by omega]

/-! ### Loads, stores and atomics -/

theorem physLoad_effects (s : State) (pa : PAddr) (w : Width) (k : AccessKind) :
    (physLoad s pa w k).leaves (Effects s) := by
  unfold physLoad
  split
  · exact Effects.refl s
  · split
    · exact Effects.refl s
    · trivial

theorem storeTo_effects (s : State) (g : Target) (pa : PAddr) (w : Width) (v : Word) :
    (storeTo s g pa w v).leaves (Effects s) := by
  unfold storeTo
  split
  · next h => exact (s.noteStore_effects _ _ _).trans (physWrite_effects h)
  · trivial

theorem Access.leaves_trans {α : Type} {a : Access α} {s u : State} (h : Effects s u)
    (ha : a.leaves (Effects u)) : a.leaves (Effects s) := by
  cases a with
  | done v t => exact h.trans ha
  | raise e t => exact h.trans ha
  | refused r => trivial

theorem physStore_effects (s : State) (pa : PAddr) (w : Width) (v : Word) :
    (physStore s pa w v).leaves (Effects s) := by
  unfold physStore
  split
  · exact Effects.refl s
  · exact storeTo_effects _ _ _ _ _

/-- Everything `MemRead` can do to the state. -/
theorem memRead_effects (s : State) (va : Word) (w : Width) : (memRead s va w).leaves (Effects s) :=
  Access.bind_leaves (translate_effects s va .load) fun _ _ h => Access.leaves_trans h (physLoad_effects _ _ _ _)

/-- Everything `MemWrite` can do to the state. -/
theorem memWrite_effects (s : State) (va : Word) (w : Width) (v : Word) :
    (memWrite s va w v).leaves (Effects s) :=
  Access.bind_leaves (translate_effects s va .store) fun _ _ h => Access.leaves_trans h (physStore_effects _ _ _ _)

theorem conditionalStore_effects (s : State) (pa : PAddr) (v : Word) :
    (conditionalStore s pa v).leaves (Effects s) := by
  unfold conditionalStore
  split
  · exact Effects.refl s
  · split
    · exact Access.bind_leaves (storeTo_effects _ _ _ _ _) fun _ _ h => h
    · exact Effects.refl s

theorem readModifyWrite_effects (s : State) (pa : PAddr) (f : Word → Word) :
    (readModifyWrite s pa f).leaves (Effects s) := by
  unfold readModifyWrite
  split
  · split
    · exact Access.bind_leaves (storeTo_effects _ _ _ _ _) fun _ _ h => h
    · trivial
  · exact Effects.refl s

/-- How an instruction that ends with its access ends: completed, or with the exception of the access. -/
theorem Access.finish_next {α : Type} {a : Access α} {tval : Word} {f : α → State → State} {t : State}
    (h : a.finish tval f = .next t) :
    (∃ v s, a = .done v s ∧ t = f v s) ∨ ∃ e s, a = .raise e s ∧ t = raiseExc e tval s := by
  cases a with
  | done v s => exact .inl ⟨v, s, rfl, by simpa [Access.finish] using h.symm⟩
  | raise e s => exact .inr ⟨e, s, rfl, by simpa [Access.finish] using h.symm⟩
  | refused r => cases h

/-- Everything a load can end in: an alignment trap, a completed load, or the exception of the access. -/
theorem loadInto_next {rd : Reg} {ea : Word} {w : Width} {f : Word → Word} {s t : State}
    (h : loadInto rd ea w f s = .next t) :
    (aligned ea w = false ∧ t = raiseExc .loadAddressMisaligned ea s) ∨
      (aligned ea w = true ∧ ∃ v s1, memRead s ea w = .done v s1 ∧ t = (s1.setX rd (f v)).advance) ∨
      (aligned ea w = true ∧ ∃ e s1, memRead s ea w = .raise e s1 ∧ t = raiseExc e ea s1) := by
  unfold loadInto at h
  split at h
  · next ha => exact .inl ⟨by simpa using ha, by simpa using h.symm⟩
  · next ha =>
    have ha : aligned ea w = true := by simpa using ha
    rcases Access.finish_next h with ⟨v, s1, h1, h2⟩ | ⟨e, s1, h1, h2⟩
    · exact .inr (.inl ⟨ha, v, s1, h1, h2⟩)
    · exact .inr (.inr ⟨ha, e, s1, h1, h2⟩)

/-- Everything a store can end in. -/
theorem storeFrom_next {ea : Word} {w : Width} {v : Word} {s t : State} (h : storeFrom ea w v s = .next t) :
    (aligned ea w = false ∧ t = raiseExc .storeAmoAddressMisaligned ea s) ∨
      (aligned ea w = true ∧ ∃ s1, memWrite s ea w v = .done () s1 ∧ t = s1.advance) ∨
      (aligned ea w = true ∧ ∃ e s1, memWrite s ea w v = .raise e s1 ∧ t = raiseExc e ea s1) := by
  unfold storeFrom at h
  split at h
  · next ha => exact .inl ⟨by simpa using ha, by simpa using h.symm⟩
  · next ha =>
    have ha : aligned ea w = true := by simpa using ha
    rcases Access.finish_next h with ⟨v, s1, h1, h2⟩ | ⟨e, s1, h1, h2⟩
    · exact .inr (.inl ⟨ha, s1, h1, h2⟩)
    · exact .inr (.inr ⟨ha, e, s1, h1, h2⟩)

/-- Everything an LR.W can end in. -/
theorem loadReserved_next {rd : Reg} {ea : Word} {s t : State} (h : loadReserved rd ea s = .next t) :
    (aligned ea .word = false ∧ t = raiseExc .loadAddressMisaligned ea s) ∨
      (aligned ea .word = true ∧ ∃ (pa : PAddr) (v : Word) (s1 : State), pa.extractLsb' 0 12 = ea.extractLsb' 0 12 ∧ Effects s s1 ∧
        t = ({ s1 with reservation := ⟨true, pa.setWidth 32⟩ }.setX rd v).advance) ∨
      (aligned ea .word = true ∧ ∃ e s1, Effects s s1 ∧ t = raiseExc e ea s1) := by
  unfold loadReserved at h
  split at h
  · next ha => exact .inl ⟨by simpa using ha, by simpa using h.symm⟩
  · next ha =>
    have ha : aligned ea .word = true := by simpa using ha
    have all := Access.bind_leaves (translate_effects s ea .load) fun pa s1 (h1 : Effects s s1) =>
      Access.leaves_trans h1 (Access.bind_leaves (physLoad_effects s1 pa .word .load) fun v s2 h2 =>
        (show (Access.done (pa, v) s2).leaves (Effects s1) from h2))
    rcases Access.finish_next h with ⟨⟨pa, v⟩, s1, h1, h2⟩ | ⟨e, s1, h1, h2⟩
    · rw [h1] at all
      obtain ⟨pa', s2, h3, h4⟩ := Access.bind_done h1
      obtain ⟨v', s3, h5, h6⟩ := Access.bind_done h4
      cases h6
      exact .inr (.inl ⟨ha, pa, v, s1, translate_low h3, all, h2⟩)
    · rw [h1] at all
      exact .inr (.inr ⟨ha, e, s1, all, h2⟩)

/-- Everything an SC.W can end in. -/
theorem storeConditional_next {rd : Reg} {ea v : Word} {s t : State} (h : storeConditional rd ea v s = .next t) :
    (aligned ea .word = false ∧ t = raiseExc .storeAmoAddressMisaligned ea s) ∨
      (∃ status s1, Effects s s1 ∧ t = (s1.dropReservation.setX rd status).advance) ∨
      ∃ e s1, Effects s s1 ∧ t = raiseExc e ea s1 := by
  unfold storeConditional at h
  split at h
  · next ha => exact .inl ⟨by simpa using ha, by simpa using h.symm⟩
  · have all := Access.bind_leaves (translate_effects s ea .store) fun pa s1 (h1 : Effects s s1) =>
      Access.leaves_trans h1 (conditionalStore_effects s1 pa v)
    rcases Access.finish_next h with ⟨st, s1, h1, h2⟩ | ⟨e, s1, h1, h2⟩
    · rw [h1] at all; exact .inr (.inl ⟨st, s1, all, h2⟩)
    · rw [h1] at all; exact .inr (.inr ⟨e, s1, all, h2⟩)

/-- Everything an AMO can end in. -/
theorem atomicOp_next {rd : Reg} {ea src : Word} {op : Word → Word → Word} {s t : State}
    (h : atomicOp rd ea src op s = .next t) :
    (aligned ea .word = false ∧ t = raiseExc .storeAmoAddressMisaligned ea s) ∨
      (∃ old s1, Effects s s1 ∧ t = (s1.setX rd old).advance) ∨
      ∃ e s1, Effects s s1 ∧ t = raiseExc e ea s1 := by
  unfold atomicOp at h
  split at h
  · next ha => exact .inl ⟨by simpa using ha, by simpa using h.symm⟩
  · have all := Access.bind_leaves (translate_effects s ea .store) fun pa s1 (h1 : Effects s s1) =>
      Access.leaves_trans h1 (readModifyWrite_effects s1 pa (op · src))
    rcases Access.finish_next h with ⟨st, s1, h1, h2⟩ | ⟨e, s1, h1, h2⟩
    · rw [h1] at all; exact .inr (.inl ⟨st, s1, all, h2⟩)
    · rw [h1] at all; exact .inr (.inr ⟨e, s1, all, h2⟩)

end Sys2Proof.Machine
end

