-- ==== Sys2Proof/Laws/Boundary.lean ====
section
/-! SUPPORT. What the boundary between two instructions leaves: the reset input and the other events
(00_scope.md R8, 70_reset_and_hazards.md R480). -/

namespace Sys2Proof.Machine

/-! ### The reset input, field by field -/

@[simp] theorem externalReset_regs (s : State) : (externalReset s).regs = resetRegs s.draws := by
  unfold externalReset; rfl
@[simp] theorem externalReset_pc (s : State) : (externalReset s).pc = s.config.resetVector := by
  unfold externalReset; rfl
@[simp] theorem externalReset_priv (s : State) : (externalReset s).priv = .M := by
  unfold externalReset; rfl
@[simp] theorem externalReset_mstatus (s : State) : (externalReset s).mstatus = 0#32 := by
  unfold externalReset; rfl
@[simp] theorem externalReset_mie (s : State) : (externalReset s).mie = Config.resetWord s.draws 64 &&& mieMask := by
  unfold externalReset; rfl
@[simp] theorem externalReset_mipSoft (s : State) :
    (externalReset s).mipSoft = Config.resetWord s.draws 65 &&& supervisorMask := by
  unfold externalReset; rfl
@[simp] theorem externalReset_mtvec (s : State) :
    (externalReset s).mtvec = Config.resetWord s.draws 66 &&& 0xFFFFFFFD#32 := by
  unfold externalReset; rfl
@[simp] theorem externalReset_stvec (s : State) :
    (externalReset s).stvec = Config.resetWord s.draws 67 &&& 0xFFFFFFFD#32 := by
  unfold externalReset; rfl
@[simp] theorem externalReset_mepc (s : State) :
    (externalReset s).mepc = Config.resetWord s.draws 68 &&& epcMask := by
  unfold externalReset; rfl
@[simp] theorem externalReset_sepc (s : State) :
    (externalReset s).sepc = Config.resetWord s.draws 69 &&& epcMask := by
  unfold externalReset; rfl
@[simp] theorem externalReset_mcause (s : State) : (externalReset s).mcause = Config.resetWord s.draws 70 := by
  unfold externalReset; rfl
@[simp] theorem externalReset_scause (s : State) : (externalReset s).scause = Config.resetWord s.draws 71 := by
  unfold externalReset; rfl
@[simp] theorem externalReset_mtval (s : State) : (externalReset s).mtval = Config.resetWord s.draws 72 := by
  unfold externalReset; rfl
@[simp] theorem externalReset_stval (s : State) : (externalReset s).stval = Config.resetWord s.draws 73 := by
  unfold externalReset; rfl
@[simp] theorem externalReset_medeleg (s : State) :
    (externalReset s).medeleg = Config.resetWord s.draws 74 &&& medelegMask := by
  unfold externalReset; rfl
@[simp] theorem externalReset_mideleg (s : State) :
    (externalReset s).mideleg = Config.resetWord s.draws 75 &&& supervisorMask := by
  unfold externalReset; rfl
@[simp] theorem externalReset_mscratch (s : State) : (externalReset s).mscratch = Config.resetWord s.draws 76 := by
  unfold externalReset; rfl
@[simp] theorem externalReset_sscratch (s : State) : (externalReset s).sscratch = Config.resetWord s.draws 77 := by
  unfold externalReset; rfl
@[simp] theorem externalReset_satp (s : State) :
    (externalReset s).satp = Config.resetWord s.draws 78 &&& 0x3FFFFFFF#32 := by
  unfold externalReset; rfl
@[simp] theorem externalReset_mcounteren (s : State) :
    (externalReset s).mcounteren = Config.resetWord s.draws 79 := by
  unfold externalReset; rfl
@[simp] theorem externalReset_scounteren (s : State) :
    (externalReset s).scounteren = Config.resetWord s.draws 80 := by
  unfold externalReset; rfl
@[simp] theorem externalReset_mcycle (s : State) : (externalReset s).mcycle = s.mcycle := by
  unfold externalReset; rfl
@[simp] theorem externalReset_minstret (s : State) : (externalReset s).minstret = 0#64 := by
  unfold externalReset; rfl
@[simp] theorem externalReset_reservation (s : State) :
    (externalReset s).reservation = ⟨Config.resetReservation s.draws, Config.resetWord s.draws 81 &&& epcMask⟩ := by
  unfold externalReset; rfl
@[simp] theorem externalReset_itlb (s : State) : (externalReset s).itlb = [] := by
  unfold externalReset; rfl
@[simp] theorem externalReset_dtlb (s : State) : (externalReset s).dtlb = [] := by
  unfold externalReset; rfl
@[simp] theorem externalReset_extIrqM (s : State) : (externalReset s).extIrqM = s.extIrqM := by
  unfold externalReset; rfl
@[simp] theorem externalReset_extIrqS (s : State) : (externalReset s).extIrqS = s.extIrqS := by
  unfold externalReset; rfl
@[simp] theorem externalReset_msip (s : State) : (externalReset s).msip = false := by
  unfold externalReset; rfl
@[simp] theorem externalReset_mtime (s : State) : (externalReset s).mtime = 0#64 := by
  unfold externalReset; rfl
@[simp] theorem externalReset_mtimecmp (s : State) :
    (externalReset s).mtimecmp = Config.resetWord s.draws 82 ++ Config.resetWord s.draws 83 := by
  unfold externalReset; rfl
@[simp] theorem externalReset_mem (s : State) : (externalReset s).mem = s.mem := by
  unfold externalReset; rfl
@[simp] theorem externalReset_fetchWindow (s : State) : (externalReset s).fetchWindow = [] := by
  unfold externalReset; rfl
@[simp] theorem externalReset_itlbGhosts (s : State) : (externalReset s).itlbGhosts = [] := by
  unfold externalReset; rfl
@[simp] theorem externalReset_pcTrace (s : State) : (externalReset s).pcTrace = s.pcTrace := by
  unfold externalReset; rfl
@[simp] theorem externalReset_inputs (s : State) : (externalReset s).inputs = s.inputs := by
  unfold externalReset; rfl
@[simp] theorem externalReset_draws (s : State) : (externalReset s).draws = s.draws + 1 := by
  unfold externalReset; rfl
@[simp] theorem externalReset_config (s : State) : (externalReset s).config = s.config := by
  unfold externalReset; rfl

@[simp] theorem resetRegs_zero (n : Nat) : (resetRegs n).get 0 = 0#32 := by
  simp [resetRegs, Vector.get_eq_getElem]

/-! ### Events one by one -/

/-- What an event other than the reset input can change. -/
theorem foreignByte_same (s : State) (a : Nat) (v : Byte) :
    foreignByte s a v = { s with mem := (foreignByte s a v).mem
                                 fetchWindow := (foreignByte s a v).fetchWindow
                                 reservation := (foreignByte s a v).reservation } := by
  unfold foreignByte; split <;> rfl

theorem foreignWrite_same (s : State) (a : Nat) (vs : List Byte) :
    foreignWrite s a vs = { s with mem := (foreignWrite s a vs).mem
                                   fetchWindow := (foreignWrite s a vs).fetchWindow
                                   reservation := (foreignWrite s a vs).reservation } := by
  induction vs generalizing s a with
  | nil => rfl
  | cons v vs ih =>
    rw [foreignWrite, ih, foreignByte_same s a v]

/-- A foreign store to the CLINT changes nothing but the CLINT and the reservation. -/
theorem foreignClintStore_same (s : State) (addr v : Word) :
    foreignClintStore s addr v = { s with msip := (foreignClintStore s addr v).msip
                                          mtime := (foreignClintStore s addr v).mtime
                                          mtimecmp := (foreignClintStore s addr v).mtimecmp
                                          reservation := (foreignClintStore s addr v).reservation } := by
  unfold foreignClintStore
  split
  · next r _ => cases r <;> rfl
  · rfl

@[simp] theorem reservationAfterForeign_addr (r : Reservation) (a n : Nat) :
    (reservationAfterForeign r a n).addr = r.addr := by
  unfold reservationAfterForeign; split <;> rfl

/-! ### The instruction a reset discards -/

/-- Every byte is one of the two memories', and the canonical form is kept. -/
theorem landSome_spec (n : Nat) (m m' : Memory) (h : Memory.wf m) :
    Memory.wf (landSome n m m') ∧ ∀ a, (landSome n m m').read a = m.read a ∨ (landSome n m m').read a = m'.read a := by
  unfold landSome
  suffices ∀ (l : List Nat) (acc : Memory), Memory.wf acc → (∀ a, acc.read a = m.read a ∨ acc.read a = m'.read a) →
      Memory.wf (l.foldl (fun acc a => if Config.storeLands n a then acc.write a (m'.read a) else acc) acc) ∧
        ∀ a, (l.foldl (fun acc a => if Config.storeLands n a then acc.write a (m'.read a) else acc) acc).read a =
            m.read a ∨
          (l.foldl (fun acc a => if Config.storeLands n a then acc.write a (m'.read a) else acc) acc).read a =
            m'.read a from
    this _ m h fun _ => .inl rfl
  intro l
  induction l with
  | nil => exact fun acc hw hr => ⟨hw, hr⟩
  | cons b l ih =>
    intro acc hw hr
    rw [List.foldl_cons]
    split
    · refine ih _ (Memory.write_wf _ _ _ hw) fun a => ?_
      rw [Memory.read_write _ _ _ _ hw.1]
      split
      · next e => exact .inr (by rw [e])
      · exact hr a
    · exact ih acc hw hr

/-- The instruction in flight either would complete, or leaves nothing. -/
theorem stepInFlight_spec (s : State) : afterBoundary s = .next (stepInFlight s) ∨ stepInFlight s = s := by
  unfold stepInFlight
  split
  · next t h => exact .inl h
  · exact .inr rfl

/-- Discarding the instruction in flight touches nothing but memory and the draw counter. -/
theorem discardInFlight_same (s : State) :
    discardInFlight s = { s with mem := (discardInFlight s).mem, draws := (discardInFlight s).draws } := rfl

/-- Memory keeps its canonical form, and each byte is the old one or the one the instruction in flight would have
left. -/
theorem discardInFlight_mem (s : State) (h : Memory.wf s.mem) :
    Memory.wf (discardInFlight s).mem ∧ ∀ a, (discardInFlight s).mem.read a = s.mem.read a ∨
      ∃ u, afterBoundary s = .next u ∧ (discardInFlight s).mem.read a = u.mem.read a := by
  have key := landSome_spec (stepInFlight s).draws s.mem (stepInFlight s).mem h
  refine ⟨key.1, fun a => ?_⟩
  obtain hs | hs := stepInFlight_spec s
  · exact (key.2 a).imp_right fun e => ⟨_, hs, e⟩
  · exact .inl ((key.2 a).elim id fun e => e.trans (by rw [hs]))

/-- `passCycles` touches nothing but `mcycle` and the draw counter. -/
theorem passCycles_same (s : State) :
    s.passCycles = { s with mcycle := s.passCycles.mcycle, draws := s.passCycles.draws } := by
  unfold State.passCycles; split <;> rfl

/-- With nothing to come from the environment, a boundary changes nothing but `mcycle` and the draw counter. -/
theorem atBoundary_quiet (s : State) (h : s.inputs = []) : atBoundary s = s.passCycles := by
  simp [atBoundary, environment, h]

/-- `mcycle` does not decrease (10_state.md R62). -/
theorem nextCycle_ge (old advance : BitVec 64) : old.toNat ≤ (nextCycle old advance).toNat := by
  unfold nextCycle
  split
  · next h => simpa [BitVec.ule] using h
  · exact Nat.le_refl _

end Sys2Proof.Machine
end

