-- ==== Sys2Proof/Laws/Clint.lean ====
section
/-! SUPPORT. The CLINT words: where the address map puts them, and what an access to one reads and writes, in the terms of
the statements (60_exceptions.md R459 to R462). -/

namespace Sys2Proof.Machine

/-- A word access at the address of a CLINT word names it. -/
theorem clintRegAt_address (c : Config) (a : Nat) (r : ClintReg) (h : a = clintWordAddress c r) :
    clintRegAt c a 4 = some r := by
  subst h
  cases r <;> simp [clintRegAt, clintWordAddress]

/-- No other access does. -/
theorem clintRegAt_elsewhere (c : Config) (a n : Nat) (h : ∀ r, n = 4 → a ≠ clintWordAddress c r) :
    clintRegAt c a n = none := by
  unfold clintRegAt
  by_cases hn : n = 4
  · have h0 := h .msip hn
    have h1 := h .mtimecmpLow hn
    have h2 := h .mtimecmpHigh hn
    have h3 := h .mtimeLow hn
    have h4 := h .mtimeHigh hn
    simp only [clintWordAddress] at h0 h1 h2 h3 h4
    simp [h0, h1, h2, h3, h4]
  · simp [hn]

/-- An access that reaches a CLINT word is answered by it, for a load and for a store. -/
theorem reachesClint_target {s u : State} {ea : Word} {k : AccessKind} {r : ClintReg} {pa : PAddr}
    (h : reachesClint s ea k r pa u) (k' : AccessKind) (hk : k' ≠ .fetch) :
    physTarget u.config pa 4 k' = some (.clint r) := by
  obtain ⟨-, ha, hlt, hr⟩ := h
  simp only [physTarget, Nat.not_le.2 hlt, if_false, hr, clintRegAt_address _ _ r ha, hk, Bool.false_eq_true]

/-- The upper word of a 64-bit register beside a new lower one, as a number. -/
theorem append_low (x : BitVec 64) (v : Word) :
    x.extractLsb' 32 32 ++ v = BitVec.ofNat 64 (x.toNat / 2 ^ 32 * 2 ^ 32 + v.toNat) := by
  apply BitVec.eq_of_toNat_eq
  have hx := x.isLt
  have hv := v.isLt
  rw [BitVec.toNat_append, ← Nat.shiftLeft_add_eq_or_of_lt hv, BitVec.extractLsb'_toNat, Nat.shiftLeft_eq,
    Nat.shiftRight_eq_div_pow, BitVec.toNat_ofNat]
  omega

/-- A new upper word beside the lower word of a 64-bit register, as a number. -/
theorem append_high (x : BitVec 64) (v : Word) :
    v ++ x.extractLsb' 0 32 = BitVec.ofNat 64 (v.toNat * 2 ^ 32 + x.toNat % 2 ^ 32) := by
  apply BitVec.eq_of_toNat_eq
  have hv := v.isLt
  have hx : (x.extractLsb' 0 32).toNat = x.toNat % 2 ^ 32 := by simp
  rw [BitVec.toNat_append, ← Nat.shiftLeft_add_eq_or_of_lt (x.extractLsb' 0 32).isLt, hx, Nat.shiftLeft_eq,
    BitVec.toNat_ofNat]
  omega

/-- What a load of a CLINT word returns. -/
theorem clintRead_eq (s : State) (r : ClintReg) : s.clintRead r = clintWord s r := by
  cases r
  case msip => unfold State.clintRead clintWord boolWord; cases s.msip <;> rfl
  all_goals
    apply BitVec.eq_of_toNat_eq
    simp [State.clintRead, clintWord, Nat.shiftRight_eq_div_pow]

/-- What a store to a CLINT word leaves. -/
theorem clintWrite_eq (s : State) (r : ClintReg) (v : Word) : s.clintWrite r v = clintStored s r v := by
  cases r <;> simp only [State.clintWrite, clintStored, append_low, append_high]

/-- The reservation plays no part in it. -/
theorem clintWrite_reservation (s : State) (r : ClintReg) (v : Word) (x : Reservation) :
    ({ s with reservation := x } : State).clintWrite r v = { clintStored s r v with reservation := x } := by
  rw [clintWrite_eq]; cases r <;> rfl

end Sys2Proof.Machine
end

