-- ==== Sys2Proof/Laws/Encoding.lean ====
section
/-! SUPPORT. What each field of an encoded word is, and what a row's mask leaves of it. -/

namespace Sys2Proof

/-! ### R -/

@[simp] theorem rdOf_encodeR (funct7 : BitVec 7) (rs2 rs1 : Reg) (funct3 : BitVec 3) (rd : Reg) (opcode : BitVec 7) :
    rdOf (encodeR funct7 rs2 rs1 funct3 rd opcode) = rd := by
  ext i hi
  simp only [rdOf, encodeR, BitVec.getElem_eq_testBit_toNat, BitVec.testBit_toNat, BitVec.getLsbD_append,
    BitVec.getLsbD_extractLsb']
  interval_cases i <;> simp_all

@[simp] theorem rs1Of_encodeR (funct7 : BitVec 7) (rs2 rs1 : Reg) (funct3 : BitVec 3) (rd : Reg) (opcode : BitVec 7) :
    rs1Of (encodeR funct7 rs2 rs1 funct3 rd opcode) = rs1 := by
  ext i hi
  simp only [rs1Of, encodeR, BitVec.getElem_eq_testBit_toNat, BitVec.testBit_toNat, BitVec.getLsbD_append,
    BitVec.getLsbD_extractLsb']
  interval_cases i <;> simp_all

@[simp] theorem rs2Of_encodeR (funct7 : BitVec 7) (rs2 rs1 : Reg) (funct3 : BitVec 3) (rd : Reg) (opcode : BitVec 7) :
    rs2Of (encodeR funct7 rs2 rs1 funct3 rd opcode) = rs2 := by
  ext i hi
  simp only [rs2Of, encodeR, BitVec.getElem_eq_testBit_toNat, BitVec.testBit_toNat, BitVec.getLsbD_append,
    BitVec.getLsbD_extractLsb']
  interval_cases i <;> simp_all

theorem encodeR_and_fe00707f (funct7 : BitVec 7) (rs2 rs1 : Reg) (funct3 : BitVec 3) (rd : Reg) (opcode : BitVec 7) :
    encodeR funct7 rs2 rs1 funct3 rd opcode &&& 0xfe00707f#32 = encodeR funct7 0#5 0#5 funct3 0#5 opcode := by
  ext i hi
  simp only [encodeR, BitVec.getElem_eq_testBit_toNat, BitVec.testBit_toNat, BitVec.getLsbD_append,
    BitVec.getLsbD_and]
  interval_cases i <;> simp

theorem encodeR_and_fe007fff (funct7 : BitVec 7) (rs2 rs1 : Reg) (funct3 : BitVec 3) (rd : Reg) (opcode : BitVec 7) :
    encodeR funct7 rs2 rs1 funct3 rd opcode &&& 0xfe007fff#32 = encodeR funct7 0#5 0#5 funct3 rd opcode := by
  ext i hi
  simp only [encodeR, BitVec.getElem_eq_testBit_toNat, BitVec.testBit_toNat, BitVec.getLsbD_append,
    BitVec.getLsbD_and]
  interval_cases i <;> simp


/-! ### I -/

@[simp] theorem rdOf_encodeI (imm : BitVec 12) (rs1 : Reg) (funct3 : BitVec 3) (rd : Reg) (opcode : BitVec 7) :
    rdOf (encodeI imm rs1 funct3 rd opcode) = rd := by
  ext i hi
  simp only [rdOf, encodeI, BitVec.getElem_eq_testBit_toNat, BitVec.testBit_toNat, BitVec.getLsbD_append,
    BitVec.getLsbD_extractLsb']
  interval_cases i <;> simp_all

@[simp] theorem rs1Of_encodeI (imm : BitVec 12) (rs1 : Reg) (funct3 : BitVec 3) (rd : Reg) (opcode : BitVec 7) :
    rs1Of (encodeI imm rs1 funct3 rd opcode) = rs1 := by
  ext i hi
  simp only [rs1Of, encodeI, BitVec.getElem_eq_testBit_toNat, BitVec.testBit_toNat, BitVec.getLsbD_append,
    BitVec.getLsbD_extractLsb']
  interval_cases i <;> simp_all

@[simp] theorem immIOf_encodeI (imm : BitVec 12) (rs1 : Reg) (funct3 : BitVec 3) (rd : Reg) (opcode : BitVec 7) :
    immIOf (encodeI imm rs1 funct3 rd opcode) = imm := by
  ext i hi
  simp only [immIOf, encodeI, BitVec.getElem_eq_testBit_toNat, BitVec.testBit_toNat, BitVec.getLsbD_append,
    BitVec.getLsbD_extractLsb']
  interval_cases i <;> simp_all

theorem encodeI_and_0000707f (imm : BitVec 12) (rs1 : Reg) (funct3 : BitVec 3) (rd : Reg) (opcode : BitVec 7) :
    encodeI imm rs1 funct3 rd opcode &&& 0x0000707f#32 = encodeI 0#12 0#5 funct3 0#5 opcode := by
  ext i hi
  simp only [encodeI, BitVec.getElem_eq_testBit_toNat, BitVec.testBit_toNat, BitVec.getLsbD_append,
    BitVec.getLsbD_and]
  interval_cases i <;> simp


/-! ### S -/

@[simp] theorem rs1Of_encodeS (imm : BitVec 12) (rs2 rs1 : Reg) (funct3 : BitVec 3) (opcode : BitVec 7) :
    rs1Of (encodeS imm rs2 rs1 funct3 opcode) = rs1 := by
  ext i hi
  simp only [rs1Of, encodeS, BitVec.getElem_eq_testBit_toNat, BitVec.testBit_toNat, BitVec.getLsbD_append,
    BitVec.getLsbD_extractLsb']
  interval_cases i <;> simp_all

@[simp] theorem rs2Of_encodeS (imm : BitVec 12) (rs2 rs1 : Reg) (funct3 : BitVec 3) (opcode : BitVec 7) :
    rs2Of (encodeS imm rs2 rs1 funct3 opcode) = rs2 := by
  ext i hi
  simp only [rs2Of, encodeS, BitVec.getElem_eq_testBit_toNat, BitVec.testBit_toNat, BitVec.getLsbD_append,
    BitVec.getLsbD_extractLsb']
  interval_cases i <;> simp_all

@[simp] theorem immSOf_encodeS (imm : BitVec 12) (rs2 rs1 : Reg) (funct3 : BitVec 3) (opcode : BitVec 7) :
    immSOf (encodeS imm rs2 rs1 funct3 opcode) = imm := by
  ext i hi
  simp only [immSOf, encodeS, BitVec.getElem_eq_testBit_toNat, BitVec.testBit_toNat, BitVec.getLsbD_append,
    BitVec.getLsbD_extractLsb']
  interval_cases i <;> simp_all

theorem encodeS_and_0000707f (imm : BitVec 12) (rs2 rs1 : Reg) (funct3 : BitVec 3) (opcode : BitVec 7) :
    encodeS imm rs2 rs1 funct3 opcode &&& 0x0000707f#32 = encodeS 0#12 0#5 0#5 funct3 opcode := by
  ext i hi
  simp only [encodeS, BitVec.getElem_eq_testBit_toNat, BitVec.testBit_toNat, BitVec.getLsbD_append,
    BitVec.getLsbD_and, BitVec.getLsbD_extractLsb']
  interval_cases i <;> simp


/-! ### B -/

@[simp] theorem rs1Of_encodeB (offset : BitVec 13) (rs2 rs1 : Reg) (funct3 : BitVec 3) (opcode : BitVec 7) :
    rs1Of (encodeB offset rs2 rs1 funct3 opcode) = rs1 := by
  ext i hi
  simp only [rs1Of, encodeB, BitVec.getElem_eq_testBit_toNat, BitVec.testBit_toNat, BitVec.getLsbD_append,
    BitVec.getLsbD_extractLsb']
  interval_cases i <;> simp_all

@[simp] theorem rs2Of_encodeB (offset : BitVec 13) (rs2 rs1 : Reg) (funct3 : BitVec 3) (opcode : BitVec 7) :
    rs2Of (encodeB offset rs2 rs1 funct3 opcode) = rs2 := by
  ext i hi
  simp only [rs2Of, encodeB, BitVec.getElem_eq_testBit_toNat, BitVec.testBit_toNat, BitVec.getLsbD_append,
    BitVec.getLsbD_extractLsb']
  interval_cases i <;> simp_all

@[simp] theorem offsetBOf_encodeB (offset : BitVec 13) (rs2 rs1 : Reg) (funct3 : BitVec 3) (opcode : BitVec 7) (even : offset.getLsbD 0 = false) :
    offsetBOf (encodeB offset rs2 rs1 funct3 opcode) = offset := by
  ext i hi
  simp only [offsetBOf, encodeB, BitVec.getElem_eq_testBit_toNat, BitVec.testBit_toNat, BitVec.getLsbD_append,
    BitVec.getLsbD_extractLsb']
  interval_cases i <;> simp_all

theorem encodeB_and_0000707f (offset : BitVec 13) (rs2 rs1 : Reg) (funct3 : BitVec 3) (opcode : BitVec 7) :
    encodeB offset rs2 rs1 funct3 opcode &&& 0x0000707f#32 = encodeB 0#13 0#5 0#5 funct3 opcode := by
  ext i hi
  simp only [encodeB, BitVec.getElem_eq_testBit_toNat, BitVec.testBit_toNat, BitVec.getLsbD_append,
    BitVec.getLsbD_and, BitVec.getLsbD_extractLsb']
  interval_cases i <;> simp


/-! ### U -/

@[simp] theorem rdOf_encodeU (imm20 : BitVec 20) (rd : Reg) (opcode : BitVec 7) :
    rdOf (encodeU imm20 rd opcode) = rd := by
  ext i hi
  simp only [rdOf, encodeU, BitVec.getElem_eq_testBit_toNat, BitVec.testBit_toNat, BitVec.getLsbD_append,
    BitVec.getLsbD_extractLsb']
  interval_cases i <;> simp_all

@[simp] theorem immUOf_encodeU (imm20 : BitVec 20) (rd : Reg) (opcode : BitVec 7) :
    immUOf (encodeU imm20 rd opcode) = imm20 := by
  ext i hi
  simp only [immUOf, encodeU, BitVec.getElem_eq_testBit_toNat, BitVec.testBit_toNat, BitVec.getLsbD_append,
    BitVec.getLsbD_extractLsb']
  interval_cases i <;> simp_all

theorem encodeU_and_0000007f (imm20 : BitVec 20) (rd : Reg) (opcode : BitVec 7) :
    encodeU imm20 rd opcode &&& 0x0000007f#32 = encodeU 0#20 0#5 opcode := by
  ext i hi
  simp only [encodeU, BitVec.getElem_eq_testBit_toNat, BitVec.testBit_toNat, BitVec.getLsbD_append,
    BitVec.getLsbD_and]
  interval_cases i <;> simp


/-! ### J -/

@[simp] theorem rdOf_encodeJ (offset : BitVec 21) (rd : Reg) (opcode : BitVec 7) :
    rdOf (encodeJ offset rd opcode) = rd := by
  ext i hi
  simp only [rdOf, encodeJ, BitVec.getElem_eq_testBit_toNat, BitVec.testBit_toNat, BitVec.getLsbD_append,
    BitVec.getLsbD_extractLsb']
  interval_cases i <;> simp_all

@[simp] theorem offsetJOf_encodeJ (offset : BitVec 21) (rd : Reg) (opcode : BitVec 7) (even : offset.getLsbD 0 = false) :
    offsetJOf (encodeJ offset rd opcode) = offset := by
  ext i hi
  simp only [offsetJOf, encodeJ, BitVec.getElem_eq_testBit_toNat, BitVec.testBit_toNat, BitVec.getLsbD_append,
    BitVec.getLsbD_extractLsb']
  interval_cases i <;> simp_all

theorem encodeJ_and_0000007f (offset : BitVec 21) (rd : Reg) (opcode : BitVec 7) :
    encodeJ offset rd opcode &&& 0x0000007f#32 = encodeJ 0#21 0#5 opcode := by
  ext i hi
  simp only [encodeJ, BitVec.getElem_eq_testBit_toNat, BitVec.testBit_toNat, BitVec.getLsbD_append,
    BitVec.getLsbD_and, BitVec.getLsbD_extractLsb']
  interval_cases i <;> simp


/-! ### Amo -/

@[simp] theorem rdOf_encodeAmo (funct5 : BitVec 5) (aq rl : Bool) (rs2 rs1 : Reg) (funct3 : BitVec 3) (rd : Reg) (opcode : BitVec 7) :
    rdOf (encodeAmo funct5 aq rl rs2 rs1 funct3 rd opcode) = rd := by
  ext i hi
  simp only [rdOf, encodeAmo, BitVec.getElem_eq_testBit_toNat, BitVec.testBit_toNat, BitVec.getLsbD_append,
    BitVec.getLsbD_extractLsb']
  interval_cases i <;> simp_all

@[simp] theorem rs1Of_encodeAmo (funct5 : BitVec 5) (aq rl : Bool) (rs2 rs1 : Reg) (funct3 : BitVec 3) (rd : Reg) (opcode : BitVec 7) :
    rs1Of (encodeAmo funct5 aq rl rs2 rs1 funct3 rd opcode) = rs1 := by
  ext i hi
  simp only [rs1Of, encodeAmo, BitVec.getElem_eq_testBit_toNat, BitVec.testBit_toNat, BitVec.getLsbD_append,
    BitVec.getLsbD_extractLsb']
  interval_cases i <;> simp_all

@[simp] theorem rs2Of_encodeAmo (funct5 : BitVec 5) (aq rl : Bool) (rs2 rs1 : Reg) (funct3 : BitVec 3) (rd : Reg) (opcode : BitVec 7) :
    rs2Of (encodeAmo funct5 aq rl rs2 rs1 funct3 rd opcode) = rs2 := by
  ext i hi
  simp only [rs2Of, encodeAmo, BitVec.getElem_eq_testBit_toNat, BitVec.testBit_toNat, BitVec.getLsbD_append,
    BitVec.getLsbD_extractLsb']
  interval_cases i <;> simp_all

@[simp] theorem aqOf_encodeAmo (funct5 : BitVec 5) (aq rl : Bool) (rs2 rs1 : Reg) (funct3 : BitVec 3) (rd : Reg) (opcode : BitVec 7) :
    aqOf (encodeAmo funct5 aq rl rs2 rs1 funct3 rd opcode) = aq := by
  simp only [aqOf, encodeAmo, ← BitVec.testBit_toNat]
  simp only [BitVec.testBit_toNat, BitVec.getLsbD_append, BitVec.getLsbD_ofBool]
  simp

@[simp] theorem rlOf_encodeAmo (funct5 : BitVec 5) (aq rl : Bool) (rs2 rs1 : Reg) (funct3 : BitVec 3) (rd : Reg) (opcode : BitVec 7) :
    rlOf (encodeAmo funct5 aq rl rs2 rs1 funct3 rd opcode) = rl := by
  simp only [rlOf, encodeAmo, ← BitVec.testBit_toNat]
  simp only [BitVec.testBit_toNat, BitVec.getLsbD_append, BitVec.getLsbD_ofBool]
  simp

theorem encodeAmo_and_f800707f (funct5 : BitVec 5) (aq rl : Bool) (rs2 rs1 : Reg) (funct3 : BitVec 3) (rd : Reg) (opcode : BitVec 7) :
    encodeAmo funct5 aq rl rs2 rs1 funct3 rd opcode &&& 0xf800707f#32 = encodeAmo funct5 false false 0#5 0#5 funct3 0#5 opcode := by
  ext i hi
  simp only [encodeAmo, BitVec.getElem_eq_testBit_toNat, BitVec.testBit_toNat, BitVec.getLsbD_append,
    BitVec.getLsbD_and]
  interval_cases i <;> simp

theorem encodeAmo_and_f9f0707f (funct5 : BitVec 5) (aq rl : Bool) (rs2 rs1 : Reg) (funct3 : BitVec 3) (rd : Reg) (opcode : BitVec 7) :
    encodeAmo funct5 aq rl rs2 rs1 funct3 rd opcode &&& 0xf9f0707f#32 = encodeAmo funct5 false false rs2 0#5 funct3 0#5 opcode := by
  ext i hi
  simp only [encodeAmo, BitVec.getElem_eq_testBit_toNat, BitVec.testBit_toNat, BitVec.getLsbD_append,
    BitVec.getLsbD_and]
  interval_cases i <;> simp


/-! ### A word is made of its fields -/

theorem encodeR_of_fields (w : Word) :
    encodeR (w.extractLsb' 25 7) (rs2Of w) (rs1Of w) (w.extractLsb' 12 3) (rdOf w) (w.extractLsb' 0 7) = w := by
  ext i hi
  simp only [encodeR, rs2Of, rs1Of, rdOf, BitVec.getElem_eq_testBit_toNat, BitVec.testBit_toNat, BitVec.getLsbD_append,
    BitVec.getLsbD_extractLsb']
  interval_cases i <;> simp

theorem encodeI_of_fields (w : Word) :
    encodeI (immIOf w) (rs1Of w) (w.extractLsb' 12 3) (rdOf w) (w.extractLsb' 0 7) = w := by
  ext i hi
  simp only [encodeI, immIOf, rs1Of, rdOf, BitVec.getElem_eq_testBit_toNat, BitVec.testBit_toNat, BitVec.getLsbD_append,
    BitVec.getLsbD_extractLsb']
  interval_cases i <;> simp

theorem encodeS_of_fields (w : Word) :
    encodeS (immSOf w) (rs2Of w) (rs1Of w) (w.extractLsb' 12 3) (w.extractLsb' 0 7) = w := by
  ext i hi
  simp only [encodeS, immSOf, rs1Of, rs2Of, BitVec.getElem_eq_testBit_toNat, BitVec.testBit_toNat, BitVec.getLsbD_append,
    BitVec.getLsbD_extractLsb']
  interval_cases i <;> simp

theorem encodeB_of_fields (w : Word) :
    encodeB (offsetBOf w) (rs2Of w) (rs1Of w) (w.extractLsb' 12 3) (w.extractLsb' 0 7) = w := by
  ext i hi
  simp only [encodeB, offsetBOf, rs1Of, rs2Of, BitVec.getElem_eq_testBit_toNat, BitVec.testBit_toNat, BitVec.getLsbD_append,
    BitVec.getLsbD_extractLsb']
  interval_cases i <;> simp

theorem encodeU_of_fields (w : Word) :
    encodeU (immUOf w) (rdOf w) (w.extractLsb' 0 7) = w := by
  ext i hi
  simp only [encodeU, immUOf, rdOf, BitVec.getElem_eq_testBit_toNat, BitVec.testBit_toNat, BitVec.getLsbD_append,
    BitVec.getLsbD_extractLsb']
  interval_cases i <;> simp

theorem encodeJ_of_fields (w : Word) :
    encodeJ (offsetJOf w) (rdOf w) (w.extractLsb' 0 7) = w := by
  ext i hi
  simp only [encodeJ, offsetJOf, rdOf, BitVec.getElem_eq_testBit_toNat, BitVec.testBit_toNat, BitVec.getLsbD_append,
    BitVec.getLsbD_extractLsb']
  interval_cases i <;> simp

theorem encodeAmo_of_fields (w : Word) :
    encodeAmo (w.extractLsb' 27 5) (aqOf w) (rlOf w) (rs2Of w) (rs1Of w) (w.extractLsb' 12 3) (rdOf w)
      (w.extractLsb' 0 7) = w := by
  ext i hi
  simp only [encodeAmo, aqOf, rlOf, rs2Of, rs1Of, rdOf, BitVec.getElem_eq_testBit_toNat, BitVec.testBit_toNat, BitVec.getLsbD_append,
    BitVec.getLsbD_extractLsb', BitVec.getLsbD_ofBool]
  interval_cases i <;> simp

/-- The offset a B-type word holds is even. -/
theorem offsetBOf_even (w : Word) : evenOffsetB (offsetBOf w) = true := by
  simp only [evenOffsetB, offsetBOf, ← BitVec.testBit_toNat]
  simp only [BitVec.testBit_toNat, BitVec.getLsbD_append]
  simp

/-- The offset a J-type word holds is even. -/
theorem offsetJOf_even (w : Word) : evenOffsetJ (offsetJOf w) = true := by
  simp only [evenOffsetJ, offsetJOf, ← BitVec.testBit_toNat]
  simp only [BitVec.testBit_toNat, BitVec.getLsbD_append]
  simp

/-- The FENCE fields side by side are the I-type immediate (30_encoding.md R191). -/
theorem fenceFields_append (w : Word) : fmOf w ++ predOf w ++ succOf w = immIOf w := by
  ext i hi
  simp only [fmOf, predOf, succOf, immIOf, BitVec.getElem_eq_testBit_toNat, BitVec.testBit_toNat,
    BitVec.getLsbD_append, BitVec.getLsbD_extractLsb']
  interval_cases i <;> simp

end Sys2Proof
end

