-- ==== Sys2Proof/Laws/PerInstr.lean ====
section
/-! SUPPORT. Statements made per instruction: one lemma per constructor of `Instr`. -/

namespace Sys2Proof.Laws.EncodedRow

/-- Some row of the opcode table accepts the word that encodes the instruction, and builds the instruction from it
(30_encoding.md R192, R193). -/
def Statement (i : Instr) : Prop :=
  i.wellFormed = true → ∃ r ∈ opcodeTable, r.accepts (encode i) = true ∧ r.build (encode i) = i

/-- The row at place `n` of the table is a witness. -/
theorem of_row (i : Instr) (n : Nat) (r : OpcodeRow) (h : opcodeTable[n]? = some r)
    (hw : i.wellFormed = true → r.accepts (encode i) = true ∧ r.build (encode i) = i) : Statement i :=
  fun w => ⟨r, List.mem_of_getElem? h, hw w⟩

theorem lui (rd : Reg) (imm20 : BitVec 20) : Statement (.lui rd imm20) :=
  of_row _ 0 _ rfl fun h => by
    refine ⟨?_, by simp [encode]⟩
    simp only [OpcodeRow.accepts, encode, encodeU_and_0000007f]; rfl

theorem auipc (rd : Reg) (imm20 : BitVec 20) : Statement (.auipc rd imm20) :=
  of_row _ 1 _ rfl fun h => by
    refine ⟨?_, by simp [encode]⟩
    simp only [OpcodeRow.accepts, encode, encodeU_and_0000007f]; rfl

theorem addi (rd rs1 : Reg) (imm : BitVec 12) : Statement (.addi rd rs1 imm) :=
  of_row _ 2 _ rfl fun h => by
    refine ⟨?_, by simp [encode]⟩
    simp only [OpcodeRow.accepts, encode, encodeI_and_0000707f]; rfl

theorem slti (rd rs1 : Reg) (imm : BitVec 12) : Statement (.slti rd rs1 imm) :=
  of_row _ 3 _ rfl fun h => by
    refine ⟨?_, by simp [encode]⟩
    simp only [OpcodeRow.accepts, encode, encodeI_and_0000707f]; rfl

theorem sltiu (rd rs1 : Reg) (imm : BitVec 12) : Statement (.sltiu rd rs1 imm) :=
  of_row _ 4 _ rfl fun h => by
    refine ⟨?_, by simp [encode]⟩
    simp only [OpcodeRow.accepts, encode, encodeI_and_0000707f]; rfl

theorem xori (rd rs1 : Reg) (imm : BitVec 12) : Statement (.xori rd rs1 imm) :=
  of_row _ 5 _ rfl fun h => by
    refine ⟨?_, by simp [encode]⟩
    simp only [OpcodeRow.accepts, encode, encodeI_and_0000707f]; rfl

theorem ori (rd rs1 : Reg) (imm : BitVec 12) : Statement (.ori rd rs1 imm) :=
  of_row _ 6 _ rfl fun h => by
    refine ⟨?_, by simp [encode]⟩
    simp only [OpcodeRow.accepts, encode, encodeI_and_0000707f]; rfl

theorem andi (rd rs1 : Reg) (imm : BitVec 12) : Statement (.andi rd rs1 imm) :=
  of_row _ 7 _ rfl fun h => by
    refine ⟨?_, by simp [encode]⟩
    simp only [OpcodeRow.accepts, encode, encodeI_and_0000707f]; rfl

theorem slli (rd rs1 : Reg) (shamt : BitVec 5) : Statement (.slli rd rs1 shamt) :=
  of_row _ 8 _ rfl fun h => by
    refine ⟨?_, by simp [encode]⟩
    simp only [OpcodeRow.accepts, encode, encodeR_and_fe00707f]; rfl

theorem srli (rd rs1 : Reg) (shamt : BitVec 5) : Statement (.srli rd rs1 shamt) :=
  of_row _ 9 _ rfl fun h => by
    refine ⟨?_, by simp [encode]⟩
    simp only [OpcodeRow.accepts, encode, encodeR_and_fe00707f]; rfl

theorem srai (rd rs1 : Reg) (shamt : BitVec 5) : Statement (.srai rd rs1 shamt) :=
  of_row _ 10 _ rfl fun h => by
    refine ⟨?_, by simp [encode]⟩
    simp only [OpcodeRow.accepts, encode, encodeR_and_fe00707f]; rfl

theorem add (rd rs1 rs2 : Reg) : Statement (.add rd rs1 rs2) :=
  of_row _ 11 _ rfl fun h => by
    refine ⟨?_, by simp [encode]⟩
    simp only [OpcodeRow.accepts, encode, encodeR_and_fe00707f]; rfl

theorem sub (rd rs1 rs2 : Reg) : Statement (.sub rd rs1 rs2) :=
  of_row _ 12 _ rfl fun h => by
    refine ⟨?_, by simp [encode]⟩
    simp only [OpcodeRow.accepts, encode, encodeR_and_fe00707f]; rfl

theorem sll (rd rs1 rs2 : Reg) : Statement (.sll rd rs1 rs2) :=
  of_row _ 13 _ rfl fun h => by
    refine ⟨?_, by simp [encode]⟩
    simp only [OpcodeRow.accepts, encode, encodeR_and_fe00707f]; rfl

theorem slt (rd rs1 rs2 : Reg) : Statement (.slt rd rs1 rs2) :=
  of_row _ 14 _ rfl fun h => by
    refine ⟨?_, by simp [encode]⟩
    simp only [OpcodeRow.accepts, encode, encodeR_and_fe00707f]; rfl

theorem sltu (rd rs1 rs2 : Reg) : Statement (.sltu rd rs1 rs2) :=
  of_row _ 15 _ rfl fun h => by
    refine ⟨?_, by simp [encode]⟩
    simp only [OpcodeRow.accepts, encode, encodeR_and_fe00707f]; rfl

theorem xor (rd rs1 rs2 : Reg) : Statement (.xor rd rs1 rs2) :=
  of_row _ 16 _ rfl fun h => by
    refine ⟨?_, by simp [encode]⟩
    simp only [OpcodeRow.accepts, encode, encodeR_and_fe00707f]; rfl

theorem srl (rd rs1 rs2 : Reg) : Statement (.srl rd rs1 rs2) :=
  of_row _ 17 _ rfl fun h => by
    refine ⟨?_, by simp [encode]⟩
    simp only [OpcodeRow.accepts, encode, encodeR_and_fe00707f]; rfl

theorem sra (rd rs1 rs2 : Reg) : Statement (.sra rd rs1 rs2) :=
  of_row _ 18 _ rfl fun h => by
    refine ⟨?_, by simp [encode]⟩
    simp only [OpcodeRow.accepts, encode, encodeR_and_fe00707f]; rfl

theorem or (rd rs1 rs2 : Reg) : Statement (.or rd rs1 rs2) :=
  of_row _ 19 _ rfl fun h => by
    refine ⟨?_, by simp [encode]⟩
    simp only [OpcodeRow.accepts, encode, encodeR_and_fe00707f]; rfl

theorem and (rd rs1 rs2 : Reg) : Statement (.and rd rs1 rs2) :=
  of_row _ 20 _ rfl fun h => by
    refine ⟨?_, by simp [encode]⟩
    simp only [OpcodeRow.accepts, encode, encodeR_and_fe00707f]; rfl

theorem jal (rd : Reg) (offset : BitVec 21) : Statement (.jal rd offset) :=
  of_row _ 21 _ rfl fun h => by
    have even : offset.getLsbD 0 = false := by simpa [Instr.wellFormed, evenOffsetJ] using h
    refine ⟨?_, by simp [encode, offsetJOf_encodeJ (even := even)]⟩
    simp only [OpcodeRow.accepts, encode, encodeJ_and_0000007f]; rfl

theorem jalr (rd rs1 : Reg) (imm : BitVec 12) : Statement (.jalr rd rs1 imm) :=
  of_row _ 22 _ rfl fun h => by
    refine ⟨?_, by simp [encode]⟩
    simp only [OpcodeRow.accepts, encode, encodeI_and_0000707f]; rfl

theorem beq (rs1 rs2 : Reg) (offset : BitVec 13) : Statement (.beq rs1 rs2 offset) :=
  of_row _ 23 _ rfl fun h => by
    have even : offset.getLsbD 0 = false := by simpa [Instr.wellFormed, evenOffsetB] using h
    refine ⟨?_, by simp [encode, offsetBOf_encodeB (even := even)]⟩
    simp only [OpcodeRow.accepts, encode, encodeB_and_0000707f]; rfl

theorem bne (rs1 rs2 : Reg) (offset : BitVec 13) : Statement (.bne rs1 rs2 offset) :=
  of_row _ 24 _ rfl fun h => by
    have even : offset.getLsbD 0 = false := by simpa [Instr.wellFormed, evenOffsetB] using h
    refine ⟨?_, by simp [encode, offsetBOf_encodeB (even := even)]⟩
    simp only [OpcodeRow.accepts, encode, encodeB_and_0000707f]; rfl

theorem blt (rs1 rs2 : Reg) (offset : BitVec 13) : Statement (.blt rs1 rs2 offset) :=
  of_row _ 25 _ rfl fun h => by
    have even : offset.getLsbD 0 = false := by simpa [Instr.wellFormed, evenOffsetB] using h
    refine ⟨?_, by simp [encode, offsetBOf_encodeB (even := even)]⟩
    simp only [OpcodeRow.accepts, encode, encodeB_and_0000707f]; rfl

theorem bge (rs1 rs2 : Reg) (offset : BitVec 13) : Statement (.bge rs1 rs2 offset) :=
  of_row _ 26 _ rfl fun h => by
    have even : offset.getLsbD 0 = false := by simpa [Instr.wellFormed, evenOffsetB] using h
    refine ⟨?_, by simp [encode, offsetBOf_encodeB (even := even)]⟩
    simp only [OpcodeRow.accepts, encode, encodeB_and_0000707f]; rfl

theorem bltu (rs1 rs2 : Reg) (offset : BitVec 13) : Statement (.bltu rs1 rs2 offset) :=
  of_row _ 27 _ rfl fun h => by
    have even : offset.getLsbD 0 = false := by simpa [Instr.wellFormed, evenOffsetB] using h
    refine ⟨?_, by simp [encode, offsetBOf_encodeB (even := even)]⟩
    simp only [OpcodeRow.accepts, encode, encodeB_and_0000707f]; rfl

theorem bgeu (rs1 rs2 : Reg) (offset : BitVec 13) : Statement (.bgeu rs1 rs2 offset) :=
  of_row _ 28 _ rfl fun h => by
    have even : offset.getLsbD 0 = false := by simpa [Instr.wellFormed, evenOffsetB] using h
    refine ⟨?_, by simp [encode, offsetBOf_encodeB (even := even)]⟩
    simp only [OpcodeRow.accepts, encode, encodeB_and_0000707f]; rfl

theorem lb (rd rs1 : Reg) (imm : BitVec 12) : Statement (.lb rd rs1 imm) :=
  of_row _ 29 _ rfl fun h => by
    refine ⟨?_, by simp [encode]⟩
    simp only [OpcodeRow.accepts, encode, encodeI_and_0000707f]; rfl

theorem lh (rd rs1 : Reg) (imm : BitVec 12) : Statement (.lh rd rs1 imm) :=
  of_row _ 30 _ rfl fun h => by
    refine ⟨?_, by simp [encode]⟩
    simp only [OpcodeRow.accepts, encode, encodeI_and_0000707f]; rfl

theorem lw (rd rs1 : Reg) (imm : BitVec 12) : Statement (.lw rd rs1 imm) :=
  of_row _ 31 _ rfl fun h => by
    refine ⟨?_, by simp [encode]⟩
    simp only [OpcodeRow.accepts, encode, encodeI_and_0000707f]; rfl

theorem lbu (rd rs1 : Reg) (imm : BitVec 12) : Statement (.lbu rd rs1 imm) :=
  of_row _ 32 _ rfl fun h => by
    refine ⟨?_, by simp [encode]⟩
    simp only [OpcodeRow.accepts, encode, encodeI_and_0000707f]; rfl

theorem lhu (rd rs1 : Reg) (imm : BitVec 12) : Statement (.lhu rd rs1 imm) :=
  of_row _ 33 _ rfl fun h => by
    refine ⟨?_, by simp [encode]⟩
    simp only [OpcodeRow.accepts, encode, encodeI_and_0000707f]; rfl

theorem sb (rs1 rs2 : Reg) (imm : BitVec 12) : Statement (.sb rs1 rs2 imm) :=
  of_row _ 34 _ rfl fun h => by
    refine ⟨?_, by simp [encode]⟩
    simp only [OpcodeRow.accepts, encode, encodeS_and_0000707f]; rfl

theorem sh (rs1 rs2 : Reg) (imm : BitVec 12) : Statement (.sh rs1 rs2 imm) :=
  of_row _ 35 _ rfl fun h => by
    refine ⟨?_, by simp [encode]⟩
    simp only [OpcodeRow.accepts, encode, encodeS_and_0000707f]; rfl

theorem sw (rs1 rs2 : Reg) (imm : BitVec 12) : Statement (.sw rs1 rs2 imm) :=
  of_row _ 36 _ rfl fun h => by
    refine ⟨?_, by simp [encode]⟩
    simp only [OpcodeRow.accepts, encode, encodeS_and_0000707f]; rfl

theorem fence (fm pred succ : BitVec 4) (rs1 rd : Reg) : Statement (.fence fm pred succ rs1 rd) :=
  of_row _ 37 _ rfl fun h => by
    refine ⟨?_, ?_⟩
    · simp only [OpcodeRow.accepts, encode, encodeI_and_0000707f]; rfl
    · simp only [encode, rdOf_encodeI, rs1Of_encodeI]
      congr 1 <;>
      · ext i hi
        simp only [fmOf, predOf, succOf, encodeI, BitVec.getElem_eq_testBit_toNat, BitVec.testBit_toNat,
          BitVec.getLsbD_append, BitVec.getLsbD_extractLsb']
        interval_cases i <;> simp

theorem mul (rd rs1 rs2 : Reg) : Statement (.mul rd rs1 rs2) :=
  of_row _ 38 _ rfl fun h => by
    refine ⟨?_, by simp [encode]⟩
    simp only [OpcodeRow.accepts, encode, encodeR_and_fe00707f]; rfl

theorem mulh (rd rs1 rs2 : Reg) : Statement (.mulh rd rs1 rs2) :=
  of_row _ 39 _ rfl fun h => by
    refine ⟨?_, by simp [encode]⟩
    simp only [OpcodeRow.accepts, encode, encodeR_and_fe00707f]; rfl

theorem mulhsu (rd rs1 rs2 : Reg) : Statement (.mulhsu rd rs1 rs2) :=
  of_row _ 40 _ rfl fun h => by
    refine ⟨?_, by simp [encode]⟩
    simp only [OpcodeRow.accepts, encode, encodeR_and_fe00707f]; rfl

theorem mulhu (rd rs1 rs2 : Reg) : Statement (.mulhu rd rs1 rs2) :=
  of_row _ 41 _ rfl fun h => by
    refine ⟨?_, by simp [encode]⟩
    simp only [OpcodeRow.accepts, encode, encodeR_and_fe00707f]; rfl

theorem div (rd rs1 rs2 : Reg) : Statement (.div rd rs1 rs2) :=
  of_row _ 42 _ rfl fun h => by
    refine ⟨?_, by simp [encode]⟩
    simp only [OpcodeRow.accepts, encode, encodeR_and_fe00707f]; rfl

theorem divu (rd rs1 rs2 : Reg) : Statement (.divu rd rs1 rs2) :=
  of_row _ 43 _ rfl fun h => by
    refine ⟨?_, by simp [encode]⟩
    simp only [OpcodeRow.accepts, encode, encodeR_and_fe00707f]; rfl

theorem rem (rd rs1 rs2 : Reg) : Statement (.rem rd rs1 rs2) :=
  of_row _ 44 _ rfl fun h => by
    refine ⟨?_, by simp [encode]⟩
    simp only [OpcodeRow.accepts, encode, encodeR_and_fe00707f]; rfl

theorem remu (rd rs1 rs2 : Reg) : Statement (.remu rd rs1 rs2) :=
  of_row _ 45 _ rfl fun h => by
    refine ⟨?_, by simp [encode]⟩
    simp only [OpcodeRow.accepts, encode, encodeR_and_fe00707f]; rfl

theorem lrW (rd rs1 : Reg) (aq rl : Bool) : Statement (.lrW rd rs1 aq rl) :=
  of_row _ 46 _ rfl fun h => by
    refine ⟨?_, by simp [encode]⟩
    simp only [OpcodeRow.accepts, encode, encodeAmo_and_f9f0707f]; rfl

theorem scW (rd rs1 rs2 : Reg) (aq rl : Bool) : Statement (.scW rd rs1 rs2 aq rl) :=
  of_row _ 47 _ rfl fun h => by
    refine ⟨?_, by simp [encode]⟩
    simp only [OpcodeRow.accepts, encode, encodeAmo_and_f800707f]; rfl

theorem amoswapW (rd rs1 rs2 : Reg) (aq rl : Bool) : Statement (.amoswapW rd rs1 rs2 aq rl) :=
  of_row _ 48 _ rfl fun h => by
    refine ⟨?_, by simp [encode]⟩
    simp only [OpcodeRow.accepts, encode, encodeAmo_and_f800707f]; rfl

theorem amoaddW (rd rs1 rs2 : Reg) (aq rl : Bool) : Statement (.amoaddW rd rs1 rs2 aq rl) :=
  of_row _ 49 _ rfl fun h => by
    refine ⟨?_, by simp [encode]⟩
    simp only [OpcodeRow.accepts, encode, encodeAmo_and_f800707f]; rfl

theorem amoxorW (rd rs1 rs2 : Reg) (aq rl : Bool) : Statement (.amoxorW rd rs1 rs2 aq rl) :=
  of_row _ 50 _ rfl fun h => by
    refine ⟨?_, by simp [encode]⟩
    simp only [OpcodeRow.accepts, encode, encodeAmo_and_f800707f]; rfl

theorem amoandW (rd rs1 rs2 : Reg) (aq rl : Bool) : Statement (.amoandW rd rs1 rs2 aq rl) :=
  of_row _ 51 _ rfl fun h => by
    refine ⟨?_, by simp [encode]⟩
    simp only [OpcodeRow.accepts, encode, encodeAmo_and_f800707f]; rfl

theorem amoorW (rd rs1 rs2 : Reg) (aq rl : Bool) : Statement (.amoorW rd rs1 rs2 aq rl) :=
  of_row _ 52 _ rfl fun h => by
    refine ⟨?_, by simp [encode]⟩
    simp only [OpcodeRow.accepts, encode, encodeAmo_and_f800707f]; rfl

theorem amominW (rd rs1 rs2 : Reg) (aq rl : Bool) : Statement (.amominW rd rs1 rs2 aq rl) :=
  of_row _ 53 _ rfl fun h => by
    refine ⟨?_, by simp [encode]⟩
    simp only [OpcodeRow.accepts, encode, encodeAmo_and_f800707f]; rfl

theorem amomaxW (rd rs1 rs2 : Reg) (aq rl : Bool) : Statement (.amomaxW rd rs1 rs2 aq rl) :=
  of_row _ 54 _ rfl fun h => by
    refine ⟨?_, by simp [encode]⟩
    simp only [OpcodeRow.accepts, encode, encodeAmo_and_f800707f]; rfl

theorem amominuW (rd rs1 rs2 : Reg) (aq rl : Bool) : Statement (.amominuW rd rs1 rs2 aq rl) :=
  of_row _ 55 _ rfl fun h => by
    refine ⟨?_, by simp [encode]⟩
    simp only [OpcodeRow.accepts, encode, encodeAmo_and_f800707f]; rfl

theorem amomaxuW (rd rs1 rs2 : Reg) (aq rl : Bool) : Statement (.amomaxuW rd rs1 rs2 aq rl) :=
  of_row _ 56 _ rfl fun h => by
    refine ⟨?_, by simp [encode]⟩
    simp only [OpcodeRow.accepts, encode, encodeAmo_and_f800707f]; rfl

theorem csrrw (rd : Reg) (csr : CsrAddr) (rs1 : Reg) : Statement (.csrrw rd csr rs1) :=
  of_row _ 57 _ rfl fun h => by
    refine ⟨?_, by simp [encode]⟩
    simp only [OpcodeRow.accepts, encode, encodeI_and_0000707f]; rfl

theorem csrrs (rd : Reg) (csr : CsrAddr) (rs1 : Reg) : Statement (.csrrs rd csr rs1) :=
  of_row _ 58 _ rfl fun h => by
    refine ⟨?_, by simp [encode]⟩
    simp only [OpcodeRow.accepts, encode, encodeI_and_0000707f]; rfl

theorem csrrc (rd : Reg) (csr : CsrAddr) (rs1 : Reg) : Statement (.csrrc rd csr rs1) :=
  of_row _ 59 _ rfl fun h => by
    refine ⟨?_, by simp [encode]⟩
    simp only [OpcodeRow.accepts, encode, encodeI_and_0000707f]; rfl

theorem csrrwi (rd : Reg) (csr : CsrAddr) (uimm : BitVec 5) : Statement (.csrrwi rd csr uimm) :=
  of_row _ 60 _ rfl fun h => by
    refine ⟨?_, by simp [encode]⟩
    simp only [OpcodeRow.accepts, encode, encodeI_and_0000707f]; rfl

theorem csrrsi (rd : Reg) (csr : CsrAddr) (uimm : BitVec 5) : Statement (.csrrsi rd csr uimm) :=
  of_row _ 61 _ rfl fun h => by
    refine ⟨?_, by simp [encode]⟩
    simp only [OpcodeRow.accepts, encode, encodeI_and_0000707f]; rfl

theorem csrrci (rd : Reg) (csr : CsrAddr) (uimm : BitVec 5) : Statement (.csrrci rd csr uimm) :=
  of_row _ 62 _ rfl fun h => by
    refine ⟨?_, by simp [encode]⟩
    simp only [OpcodeRow.accepts, encode, encodeI_and_0000707f]; rfl

theorem ecall : Statement (.ecall) :=
  of_row _ 63 _ rfl fun h => by
    exact ⟨by decide, rfl⟩

theorem ebreak : Statement (.ebreak) :=
  of_row _ 64 _ rfl fun h => by
    exact ⟨by decide, rfl⟩

theorem sret : Statement (.sret) :=
  of_row _ 65 _ rfl fun h => by
    exact ⟨by decide, rfl⟩

theorem mret : Statement (.mret) :=
  of_row _ 66 _ rfl fun h => by
    exact ⟨by decide, rfl⟩

theorem wfi : Statement (.wfi) :=
  of_row _ 67 _ rfl fun h => by
    exact ⟨by decide, rfl⟩

theorem sfenceVma (rs1 rs2 : Reg) : Statement (.sfenceVma rs1 rs2) :=
  of_row _ 68 _ rfl fun h => by
    refine ⟨?_, by simp [encode]⟩
    simp only [OpcodeRow.accepts, encode, encodeR_and_fe007fff]; rfl

end Sys2Proof.Laws.EncodedRow
end

