-- ==== Sys2Proof/Laws/Registers.lean ====
section
/-! SUPPORT. Reading a register after a write (10_state.md R22, R23). -/

namespace Sys2Proof.Machine

theorem portOf_val (r : Reg) : (portOf r).val = r.toNat := by
  simp only [portOf, BitVec.toFin_setWidth, Fin.val_ofNat]
  exact Nat.mod_eq_of_lt (by have := r.isLt; omega)

theorem portOf_eq_zero (r : Reg) : portOf r = 0 ↔ r = 0#5 := by
  rw [Fin.ext_iff, portOf_val]
  constructor
  · intro h; exact BitVec.eq_of_toNat_eq (by simpa using h)
  · rintro rfl; rfl

theorem portOf_inj {r q : Reg} (h : portOf r = portOf q) : r = q := by
  rw [Fin.ext_iff, portOf_val, portOf_val] at h
  exact BitVec.eq_of_toNat_eq h

/-- An instruction names entries below 32 only (10_state.md R21). -/
theorem portOf_lt (r : Reg) : (portOf r).val < 32 := by
  rw [portOf_val]; exact r.isLt

theorem writePort_get (regs : Vector Word 64) (p q : Fin 64) (v : Word) :
    (writePort regs p v).get q = if q = p ∧ p ≠ 0 then v else regs.get q := by
  unfold writePort
  by_cases hp : p = 0
  · simp [hp]
  · simp only [hp, if_false, ne_eq, not_false_eq_true, and_true, Vector.get_eq_getElem, Vector.getElem_set,
      Fin.ext_iff, eq_comm]

@[simp] theorem State.x_zero (s : State) : s.x 0#5 = 0#32 := by
  have : portOf 0#5 = 0 := (portOf_eq_zero _).2 rfl
  simp [State.x, this, readPort]

theorem State.x_setX (s : State) (r q : Reg) (v : Word) :
    (s.setX r v).x q = if q = r ∧ r ≠ 0#5 then v else s.x q := by
  simp only [State.x, State.setX_regs, readPort, writePort_get, portOf_eq_zero]
  by_cases hq : q = 0#5
  · subst hq
    by_cases hr : 0#5 = r <;> simp [hr]
  · by_cases h : portOf q = portOf r
    · have := portOf_inj h
      subst this
      simp [hq, portOf_eq_zero]
    · have hne : q ≠ r := fun e => h (by rw [e])
      simp [hq, h, hne]

/-- What a register write does to the whole register file. -/
theorem State.setX_becomes (s : State) (r : Reg) (v : Word) :
    (s.setX r v).x r = (if r = 0#5 then 0#32 else v) ∧
      ∀ p : Fin 64, p ≠ portOf r ∨ p = 0 → (s.setX r v).regs.get p = s.regs.get p := by
  constructor
  · by_cases h : r = 0#5
    · subst h; simp
    · simp [State.x_setX, h]
  · intro p hp
    rw [State.setX_regs, writePort_get]
    rcases hp with h | h
    · simp [h]
    · rw [if_neg]
      rintro ⟨e, n⟩
      exact n (e.symm.trans h)

/-- A register write leaves entry 0 alone. -/
theorem State.setX_get_zero (s : State) (r : Reg) (v : Word) : (s.setX r v).regs.get 0 = s.regs.get 0 :=
  (s.setX_becomes r v).2 0 (.inr rfl)

/-- The registers no instruction can name keep their value (10_state.md R21). -/
theorem State.setX_get_high (s : State) (r : Reg) (v : Word) (p : Fin 64) (h : 32 ≤ p.val) :
    (s.setX r v).regs.get p = s.regs.get p :=
  (s.setX_becomes r v).2 p (.inl fun e => by have := portOf_lt r; rw [e] at h; omega)

end Sys2Proof.Machine
end

