-- ==== Sys2Proof/Laws/Translation.lean ====
section
/-! SUPPORT. How a translation can end: each way it completes and each way it raises, once, cited instead of unfolding
`translate` (20_memory.md R130 to R140). -/

namespace Sys2Proof.Machine

/-! ### The traces compose -/

theorem CacheTrace.refl (s : State) : CacheTrace s s := rfl

theorem CacheTrace.trans {s t u : State} (h : CacheTrace s t) (g : CacheTrace t u) : CacheTrace s u := by
  unfold CacheTrace at *; rw [g, h]

theorem CacheTrace.pc_eq {s u : State} (h : CacheTrace s u) : u.pc = s.pc := by
  unfold CacheTrace at h; rw [h]

theorem CacheTrace.mem_eq {s u : State} (h : CacheTrace s u) : u.mem = s.mem := by
  unfold CacheTrace at h; rw [h]

/-- What a cached entry, a dropped entry and a draw leave. -/
theorem State.setTlb_cacheTrace (s : State) (k : AccessKind) (l : List TlbEntry) : CacheTrace s (s.setTlb k l) := by
  simp [CacheTrace, State.setTlb]

theorem State.dropTlbEntries_cacheTrace (s : State) (k : AccessKind) (n : Nat) :
    CacheTrace s { s.dropTlbEntries k with draws := n } := by
  simp [CacheTrace, State.dropTlbEntries, State.setTlb]

theorem State.forgetTlbEntry_cacheTrace (s : State) (k : AccessKind) (e : TlbEntry) :
    CacheTrace s (s.forgetTlbEntry k e) := State.setTlb_cacheTrace _ _ _

theorem State.fillTlb_cacheTrace (s : State) (k : AccessKind) (va pte : Word) (l : Level) (n : Nat) :
    CacheTrace s (s.fillTlb k va pte l n) := State.setTlb_cacheTrace _ _ _

/-- A physical write changes nothing but memory, the CLINT and the reservation. -/
theorem physWrite_same {s t : State} {g : Target} {pa : PAddr} {w : Width} {v : Word}
    (h : physWrite s g pa w v = some t) :
    t = { s with mem := t.mem, reservation := t.reservation, msip := t.msip, mtime := t.mtime
                 mtimecmp := t.mtimecmp } := by
  cases g with
  | memory => cases h; rfl
  | clint r => cases r <;> (cases h; rfl)
  | device => cases h

theorem TranslationTrace.pc_eq {s u : State} {va : Word} {k : AccessKind} (h : TranslationTrace s va k u) :
    u.pc = s.pc := by
  obtain h | ⟨_, _, _, _, w, -, -, -, -, hw, h⟩ := h
  · exact h.pc_eq
  · rw [h.pc_eq, physWrite_same hw]

/-- A write to memory is the store of the bytes, and what it does to the reservation. -/
theorem physWrite_memory {s t : State} {pa : PAddr} {w : Width} {v : Word} (h : physWrite s .memory pa w v = some t) :
    t = { s with mem := s.mem.store pa.toNat w v
                 reservation := reservationAfterOwnWrite s.config s.reservation pa.toNat w.bytes } := by
  cases h; rfl

/-- The codes of the exceptions a translation raises. -/
@[simp] theorem pageFaultOf_code (k : AccessKind) : (pageFaultOf k).code = pageFaultCode k := by cases k <;> rfl
@[simp] theorem accessFaultOf_code (k : AccessKind) : (accessFaultOf k).code = accessFaultCode k := by cases k <;> rfl

/-! ### Translation by a walk -/

/-- The walk reads only what a translation leaves alone. -/
theorem walk_of_cacheTrace {s u : State} (h : CacheTrace s u) (va : Word) : walk u va = walk s va := by
  have key : ∀ (n : Nat) (a : PAddr), walkFrom u va n a = walkFrom s va n a := by
    intro n
    induction n with
    | zero => intro a; rfl
    | succ n ih =>
      intro a
      unfold CacheTrace at h
      have hr : ∀ t pa w, physRead u t pa w = physRead s t pa w := by
        intro t pa w
        rw [h]; cases t with
        | memory => rfl
        | clint r => cases r <;> rfl
        | device => rfl
      have hc : u.config = s.config := by rw [h]
      simp only [walkFrom, hr, hc, ih]
  have hp : u.satp = s.satp := by unfold CacheTrace at h; rw [h]
  simp only [walk, key, hp]

/-- How a translation by a walk completes. -/
theorem translateByWalk_done {s u : State} {va : Word} {k : AccessKind} {n : Nat} {pa : PAddr}
    (h : translateByWalk s va k n = .done pa u) :
    ∃ pte a l, walk s va = .leaf pte a l ∧ leafAllows s.priv s.mstatus k pte l = true ∧ pa = leafAddress pte va l ∧
      ((needsUpdate pte k = false ∧ u = s.fillTlb k va pte l n) ∨
        (needsUpdate pte k = true ∧ ∃ t s', physTarget s.config a 4 .store = some t ∧
          physWrite s t a .word (updatedPte pte k) = some s' ∧ u = s'.fillTlb k va (updatedPte pte k) l n)) := by
  unfold translateByWalk at h
  split at h
  · cases h
  · cases h
  · cases h
  · next pte a l hw =>
    split at h
    · cases h
    · next hl =>
      refine ⟨pte, a, l, hw, by simpa using hl, ?_⟩
      split at h
      · next hn =>
        split at h
        · cases h
        · next t ht =>
          split at h
          · cases h
          · next s' hs =>
            cases h
            exact ⟨rfl, .inr ⟨hn, t, s', ht, hs, rfl⟩⟩
      · next hn =>
        cases h
        exact ⟨rfl, .inl ⟨by simpa using hn, rfl⟩⟩

/-- How a translation by a walk raises: nothing has changed. -/
theorem translateByWalk_raise {s u : State} {va : Word} {k : AccessKind} {n : Nat} {e : Exc}
    (h : translateByWalk s va k n = .raise e u) : (e = pageFaultOf k ∨ e = accessFaultOf k) ∧ u = s := by
  unfold translateByWalk at h
  split at h
  · cases h
  · cases h; exact ⟨.inr rfl, rfl⟩
  · cases h; exact ⟨.inl rfl, rfl⟩
  · split at h
    · cases h; exact ⟨.inl rfl, rfl⟩
    · split at h
      · split at h
        · cases h; exact ⟨.inr rfl, rfl⟩
        · split at h <;> cases h
      · cases h

/-! ### Translation through Sv32 -/

/-- How a translation through Sv32 runs: by a candidate entry that passes its checks, by an entry that fails them and
faults at once, or by a walk in a state where only cached entries have been dropped. -/
theorem translateSv32_cases (s : State) (va : Word) (k : AccessKind) :
    ∃ s1, CacheTrace s s1 ∧ ((∃ n, translateSv32 s va k = translateByWalk s1 va k n) ∨
      (translateSv32 s va k = .raise (pageFaultOf k) s1 ∧ s.tlbCandidates va k ≠ []) ∨
      ∃ e ∈ s.tlbCandidates va k, leafAllows s.priv s.mstatus k e.pte e.level = true ∧ needsUpdate e.pte k = false ∧
        translateSv32 s va k = .done (leafAddress e.pte va e.level) s1) := by
  have h0 : CacheTrace s { s.dropTlbEntries k with draws := s.draws + 1 } := State.dropTlbEntries_cacheTrace s k _
  have hmem : ∀ c e, pickCandidate (({ s.dropTlbEntries k with draws := s.draws + 1 } : State).tlbCandidates va k) c =
      some e → e ∈ s.tlbCandidates va k := by
    intro c e he
    have h1 : e ∈ ({ s.dropTlbEntries k with draws := s.draws + 1 } : State).tlbCandidates va k := by
      generalize ({ s.dropTlbEntries k with draws := s.draws + 1 } : State).tlbCandidates va k = l at he
      cases l with
      | nil => cases he
      | cons x xs => exact List.mem_of_getElem? he
    unfold State.tlbCandidates at *
    rw [List.mem_append] at *
    refine h1.imp (fun h => ?_) (fun h => ?_)
    · rw [List.mem_filter] at *
      refine ⟨?_, h.2⟩
      have := h.1
      cases k <;> simp [State.tlb, State.dropTlbEntries, State.setTlb] at this ⊢ <;> exact this.1
    · have : ({ s.dropTlbEntries k with draws := s.draws + 1 } : State).itlbGhosts = s.itlbGhosts := by
        simp [State.dropTlbEntries, State.setTlb]
      rw [this] at h; exact h
  unfold translateSv32
  dsimp only
  split
  · exact ⟨_, h0, .inl ⟨_, rfl⟩⟩
  · next e he =>
    have he' := hmem _ _ he
    split
    · split
      · exact ⟨_, h0, .inr (.inl ⟨rfl, List.ne_nil_of_mem he'⟩)⟩
      · exact ⟨_, h0.trans (State.forgetTlbEntry_cacheTrace _ k e), .inl ⟨_, rfl⟩⟩
    · next hl =>
      split
      · exact ⟨_, h0.trans (State.forgetTlbEntry_cacheTrace _ k e), .inl ⟨_, rfl⟩⟩
      · next hn =>
        exact ⟨_, h0, .inr (.inr ⟨e, he', by simpa [State.dropTlbEntries, State.setTlb] using hl, by simpa using hn, rfl⟩)⟩

/-- The checks of a leaf, as the rule lists them (20_memory.md R135). No access is translated in M-mode. -/
theorem leafAllows_iff (p : Priv) (m : Word) (k : AccessKind) (pte : Word) (l : Level) :
    leafAllows p m k pte l = true ↔ leafPermits p m k pte l := by
  have hmis : misalignedMegapage pte l = false ↔ (l = .megapage → pte.extractLsb' 10 10 = 0#10) := by
    cases l <;> simp [misalignedMegapage]
  unfold leafAllows leafPermits
  simp only [Bool.and_eq_true, Bool.not_eq_true', hmis]
  simp only [pteInvalid, pteLeaf, pteGrants, pteModeOk, pteV, pteR, pteW, pteX, pteU, statusMXR, statusSUM]
  generalize pte.getLsbD 0 = b0
  generalize pte.getLsbD 1 = b1
  generalize pte.getLsbD 2 = b2
  generalize pte.getLsbD 3 = b3
  generalize pte.getLsbD 4 = b4
  generalize m.getLsbD 18 = b18
  generalize m.getLsbD 19 = b19
  cases k <;> cases p <;> cases b0 <;> cases b1 <;> cases b2 <;> cases b3 <;> cases b4 <;>
    simp [and_assoc]

/-- When an access must set A or D (20_memory.md R136). -/
theorem needsUpdate_iff (k : AccessKind) (pte : Word) : needsUpdate pte k = true ↔ entryNeedsUpdate k pte := by
  unfold needsUpdate entryNeedsUpdate pteA pteD
  generalize pte.getLsbD 6 = b6
  generalize pte.getLsbD 7 = b7
  cases k <;> cases b6 <;> cases b7 <;> simp

end Sys2Proof.Machine
end

