-- ==== Sys2Proof/Laws/Trap.lean ====
section
/-! SUPPORT. The fields after trap entry and return (60_exceptions.md R431, 46_system.md R364, R365). -/

namespace Sys2Proof.Machine

section
variable (interrupt : Bool) (code : Nat) (epc tval : Word) (s : State)

/-- What trap entry never changes (60_exceptions.md R431). -/
theorem takeTrap_same :
    takeTrap interrupt code epc tval s =
      { s with
        pc := (takeTrap interrupt code epc tval s).pc
        priv := (takeTrap interrupt code epc tval s).priv
        mstatus := (takeTrap interrupt code epc tval s).mstatus
        mepc := (takeTrap interrupt code epc tval s).mepc
        mcause := (takeTrap interrupt code epc tval s).mcause
        mtval := (takeTrap interrupt code epc tval s).mtval
        sepc := (takeTrap interrupt code epc tval s).sepc
        scause := (takeTrap interrupt code epc tval s).scause
        stval := (takeTrap interrupt code epc tval s).stval
        reservation := { s.reservation with valid := false }
        fetchWindow := []
        itlbGhosts := [] } := by
  unfold takeTrap; simp only; split <;> rfl

@[simp] theorem takeTrap_regs : (takeTrap interrupt code epc tval s).regs = s.regs := by
  rw [takeTrap_same]
@[simp] theorem takeTrap_mem : (takeTrap interrupt code epc tval s).mem = s.mem := by
  rw [takeTrap_same]
@[simp] theorem takeTrap_config : (takeTrap interrupt code epc tval s).config = s.config := by
  rw [takeTrap_same]
@[simp] theorem takeTrap_mie : (takeTrap interrupt code epc tval s).mie = s.mie := by
  rw [takeTrap_same]
@[simp] theorem takeTrap_mipSoft : (takeTrap interrupt code epc tval s).mipSoft = s.mipSoft := by
  rw [takeTrap_same]
@[simp] theorem takeTrap_medeleg : (takeTrap interrupt code epc tval s).medeleg = s.medeleg := by
  rw [takeTrap_same]
@[simp] theorem takeTrap_mideleg : (takeTrap interrupt code epc tval s).mideleg = s.mideleg := by
  rw [takeTrap_same]
@[simp] theorem takeTrap_mtvec : (takeTrap interrupt code epc tval s).mtvec = s.mtvec := by
  rw [takeTrap_same]
@[simp] theorem takeTrap_stvec : (takeTrap interrupt code epc tval s).stvec = s.stvec := by
  rw [takeTrap_same]
@[simp] theorem takeTrap_satp : (takeTrap interrupt code epc tval s).satp = s.satp := by
  rw [takeTrap_same]
@[simp] theorem takeTrap_itlb : (takeTrap interrupt code epc tval s).itlb = s.itlb := by
  rw [takeTrap_same]
@[simp] theorem takeTrap_dtlb : (takeTrap interrupt code epc tval s).dtlb = s.dtlb := by
  rw [takeTrap_same]
@[simp] theorem takeTrap_minstret : (takeTrap interrupt code epc tval s).minstret = s.minstret := by
  rw [takeTrap_same]
@[simp] theorem takeTrap_pcTrace : (takeTrap interrupt code epc tval s).pcTrace = s.pcTrace := by
  rw [takeTrap_same]
@[simp] theorem takeTrap_inputs : (takeTrap interrupt code epc tval s).inputs = s.inputs := by
  rw [takeTrap_same]
@[simp] theorem takeTrap_fetchWindow : (takeTrap interrupt code epc tval s).fetchWindow = [] := by
  rw [takeTrap_same]
@[simp] theorem takeTrap_itlbGhosts : (takeTrap interrupt code epc tval s).itlbGhosts = [] := by
  rw [takeTrap_same]
@[simp] theorem takeTrap_reservation :
    (takeTrap interrupt code epc tval s).reservation = { s.reservation with valid := false } := by
  rw [takeTrap_same]

/-- A trap that is not delegated goes to M-mode (60_exceptions.md R431, R433). -/
theorem takeTrap_toM (h : s.delegated interrupt code = false) :
    takeTrap interrupt code epc tval s =
      { s with
        mepc := epc
        mcause := causeWord interrupt code
        mtval := tval
        mstatus := statusEnterM s.mstatus s.priv
        priv := .M
        pc := trapVector s.config s.mtvec interrupt code
        reservation := { s.reservation with valid := false }
        fetchWindow := []
        itlbGhosts := [] } := by
  simp [takeTrap, h, State.flushFetch]

/-- A delegated trap goes to S-mode (60_exceptions.md R431, R433). -/
theorem takeTrap_toS (h : s.delegated interrupt code = true) :
    takeTrap interrupt code epc tval s =
      { s with
        sepc := epc
        scause := causeWord interrupt code
        stval := tval
        mstatus := statusEnterS s.mstatus s.priv
        priv := .S
        pc := trapVector s.config s.stvec interrupt code
        reservation := { s.reservation with valid := false }
        fetchWindow := []
        itlbGhosts := [] } := by
  simp [takeTrap, h, State.flushFetch]

end

/-! ### Bits of `mstatus` -/

/-- One bit of a word after one bit was set. -/
theorem setBit_getLsbD (w : Word) (i j : Nat) (b : Bool) (h : j < 32) :
    (setBit w i b).getLsbD j = if j = i then b else w.getLsbD j := by
  unfold setBit
  by_cases hji : j = i
  · subst hji
    cases b <;> simp [h]
  · have hb : (1#32 <<< i).getLsbD j = false := by
      by_cases hlt : j < i
      · simp [hlt]
      · simp [BitVec.getLsbD_one, show j - i ≠ 0 by omega]
    cases b
    · simp only [Bool.false_eq_true, if_false, BitVec.getLsbD_and, BitVec.getLsbD_not, hb, h, hji]
      simp
    · simp only [if_true, BitVec.getLsbD_or, hb, hji, if_false, Bool.or_false]

/-- One bit of a word after a masked write. -/
theorem writeMasked_getLsbD (mask old v : Word) (j : Nat) :
    (writeMasked mask old v).getLsbD j = if mask.getLsbD j then v.getLsbD j else old.getLsbD j := by
  by_cases hj : j < 32
  · cases hm : mask.getLsbD j <;>
      simp only [writeMasked, BitVec.getLsbD_or, BitVec.getLsbD_and, BitVec.getLsbD_not, hm, hj] <;> simp
  · have h1 : mask.getLsbD j = false := BitVec.getLsbD_of_ge _ _ (by omega)
    have h2 : old.getLsbD j = false := BitVec.getLsbD_of_ge _ _ (by omega)
    simp [writeMasked, h1, h2]

end Sys2Proof.Machine
end

