-- ==== Sys2Proof/Tests/Slice0.lean ====
section
/-! SUPPORT. Tests: every expected value is one the spec prints (95_test_vectors.md, 96_test_vectors_privileged.md). At
the end, for every statement that has hypotheses, states and operands that meet them. -/

namespace Sys2Proof.Tests
open Sys2Proof Sys2Proof.Machine

/-- The baseline of the spec's vectors (95_test_vectors.md 2.0), with handlers set. -/
def base : State :=
  { State.resetWith { standardConfig with ownStoreClearsReservation := false } with
    mtvec := 0x80000400#32, stvec := 0x80000800#32, mtimecmp := 0xFFFFFFFFFFFFFFFF#64 }

/-- `s` with a register set. -/
def put (i : Nat) (v : Word) (s : State) : State := { s with regs := s.regs.set! i v }

/-- `s` with a word in memory. -/
def hold (a : Nat) (v : Word) (s : State) : State := { s with mem := s.mem.store a .word v }

/-- The data the load and store vectors start from (95_test_vectors.md 5). -/
def dataBase : State := hold 0x80001000 0x923480FF#32 (put 10 0x80001000#32 base)

/-- What one step with the instruction word `w` at the pc leaves. -/
def ran (s : State) (w : Nat) : Option State :=
  match step (s.withFetchWord 32 w) with
  | .next t => some t
  | _ => none

/-! ### One word per instruction (95_test_vectors.md 2.1) -/

theorem test_decode_lui : decodeWord 0x123452B7#32 = some (.lui 5#5 0x12345#20) := by decide
theorem test_decode_auipc : decodeWord 0xFFFFFF97#32 = some (.auipc 31#5 0xFFFFF#20) := by decide
theorem test_decode_addi : decodeWord 0x80010093#32 = some (.addi 1#5 2#5 0x800#12) := by decide
theorem test_decode_slti : decodeWord 0x7FF22193#32 = some (.slti 3#5 4#5 0x7FF#12) := by decide
theorem test_decode_sltiu : decodeWord 0xFFF33293#32 = some (.sltiu 5#5 6#5 0xFFF#12) := by decide
theorem test_decode_xori : decodeWord 0x55544393#32 = some (.xori 7#5 8#5 0x555#12) := by decide
theorem test_decode_ori : decodeWord 0xAAA56493#32 = some (.ori 9#5 10#5 0xAAA#12) := by decide
theorem test_decode_andi : decodeWord 0x0FF67593#32 = some (.andi 11#5 12#5 0xFF#12) := by decide
theorem test_decode_slli : decodeWord 0x01F71693#32 = some (.slli 13#5 14#5 0x1F#5) := by decide
theorem test_decode_srli : decodeWord 0x00185793#32 = some (.srli 15#5 16#5 0x1#5) := by decide
theorem test_decode_srai : decodeWord 0x41195893#32 = some (.srai 17#5 18#5 0x11#5) := by decide
theorem test_decode_add : decodeWord 0x015A09B3#32 = some (.add 19#5 20#5 21#5) := by decide
theorem test_decode_sub : decodeWord 0x418B8B33#32 = some (.sub 22#5 23#5 24#5) := by decide
theorem test_decode_sll : decodeWord 0x01BD1CB3#32 = some (.sll 25#5 26#5 27#5) := by decide
theorem test_decode_slt : decodeWord 0x01EEAE33#32 = some (.slt 28#5 29#5 30#5) := by decide
theorem test_decode_sltu : decodeWord 0x0020BFB3#32 = some (.sltu 31#5 1#5 2#5) := by decide
theorem test_decode_xor : decodeWord 0x005241B3#32 = some (.xor 3#5 4#5 5#5) := by decide
theorem test_decode_srl : decodeWord 0x0083D333#32 = some (.srl 6#5 7#5 8#5) := by decide
theorem test_decode_sra : decodeWord 0x40B554B3#32 = some (.sra 9#5 10#5 11#5) := by decide
theorem test_decode_or : decodeWord 0x00E6E633#32 = some (.or 12#5 13#5 14#5) := by decide
theorem test_decode_and : decodeWord 0x011877B3#32 = some (.and 15#5 16#5 17#5) := by decide
theorem test_decode_jal : decodeWord 0x800000EF#32 = some (.jal 1#5 0x100000#21) := by decide
theorem test_decode_jal_far : decodeWord 0x4DFAB06F#32 = some (.jal 0#5 0xABCDE#21) := by decide
theorem test_decode_jalr : decodeWord 0xFFFF80E7#32 = some (.jalr 1#5 31#5 0xFFF#12) := by decide
theorem test_decode_beq : decodeWord 0x80208063#32 = some (.beq 1#5 2#5 0x1000#13) := by decide
theorem test_decode_bne : decodeWord 0x7E419FE3#32 = some (.bne 3#5 4#5 0xFFE#13) := by decide
theorem test_decode_blt : decodeWord 0x0062C0E3#32 = some (.blt 5#5 6#5 0x800#13) := by decide
theorem test_decode_bge : decodeWord 0xFE83DFE3#32 = some (.bge 7#5 8#5 0x1FFE#13) := by decide
theorem test_decode_bltu : decodeWord 0x54A4EA63#32 = some (.bltu 9#5 10#5 0x554#13) := by decide
theorem test_decode_bgeu : decodeWord 0x2AC5F5E3#32 = some (.bgeu 11#5 12#5 0xAAA#13) := by decide
theorem test_decode_lb : decodeWord 0xFFF10083#32 = some (.lb 1#5 2#5 0xFFF#12) := by decide
theorem test_decode_lh : decodeWord 0x00221183#32 = some (.lh 3#5 4#5 0x2#12) := by decide
theorem test_decode_lw : decodeWord 0x7FF32283#32 = some (.lw 5#5 6#5 0x7FF#12) := by decide
theorem test_decode_lbu : decodeWord 0x80044383#32 = some (.lbu 7#5 8#5 0x800#12) := by decide
theorem test_decode_lhu : decodeWord 0x00055483#32 = some (.lhu 9#5 10#5 0x0#12) := by decide
theorem test_decode_sb : decodeWord 0xFE110FA3#32 = some (.sb 2#5 1#5 0xFFF#12) := by decide
theorem test_decode_sh : decodeWord 0x06321F23#32 = some (.sh 4#5 3#5 0x7E#12) := by decide
theorem test_decode_sw : decodeWord 0x81FF2023#32 = some (.sw 30#5 31#5 0x800#12) := by decide
theorem test_decode_fence : decodeWord 0x0FF0000F#32 = some (.fence 0#4 15#4 15#4 0#5 0#5) := by decide
theorem test_decode_mul : decodeWord 0x023100B3#32 = some (.mul 1#5 2#5 3#5) := by decide
theorem test_decode_mulh : decodeWord 0x02629233#32 = some (.mulh 4#5 5#5 6#5) := by decide
theorem test_decode_mulhsu : decodeWord 0x029423B3#32 = some (.mulhsu 7#5 8#5 9#5) := by decide
theorem test_decode_mulhu : decodeWord 0x02C5B533#32 = some (.mulhu 10#5 11#5 12#5) := by decide
theorem test_decode_div : decodeWord 0x02F746B3#32 = some (.div 13#5 14#5 15#5) := by decide
theorem test_decode_divu : decodeWord 0x0328D833#32 = some (.divu 16#5 17#5 18#5) := by decide
theorem test_decode_rem : decodeWord 0x035A69B3#32 = some (.rem 19#5 20#5 21#5) := by decide
theorem test_decode_remu : decodeWord 0x038BFB33#32 = some (.remu 22#5 23#5 24#5) := by decide
theorem test_decode_lrW : decodeWord 0x100120AF#32 = some (.lrW 1#5 2#5 false false) := by decide
theorem test_decode_scW : decodeWord 0x1E42A1AF#32 = some (.scW 3#5 5#5 4#5 true true) := by decide
theorem test_decode_amoswapW : decodeWord 0x0874232F#32 = some (.amoswapW 6#5 8#5 7#5 false false) := by decide
theorem test_decode_amoaddW : decodeWord 0x02A5A4AF#32 = some (.amoaddW 9#5 11#5 10#5 false true) := by decide
theorem test_decode_amoxorW : decodeWord 0x20D7262F#32 = some (.amoxorW 12#5 14#5 13#5 false false) := by decide
theorem test_decode_amoandW : decodeWord 0x6508A7AF#32 = some (.amoandW 15#5 17#5 16#5 true false) := by decide
theorem test_decode_amoorW : decodeWord 0x413A292F#32 = some (.amoorW 18#5 20#5 19#5 false false) := by decide
theorem test_decode_amominW : decodeWord 0x816BAAAF#32 = some (.amominW 21#5 23#5 22#5 false false) := by decide
theorem test_decode_amomaxW : decodeWord 0xA19D2C2F#32 = some (.amomaxW 24#5 26#5 25#5 false false) := by decide
theorem test_decode_amominuW : decodeWord 0xC1CEADAF#32 = some (.amominuW 27#5 29#5 28#5 false false) := by decide
theorem test_decode_amomaxuW : decodeWord 0xE7F0AF2F#32 = some (.amomaxuW 30#5 1#5 31#5 true true) := by decide
theorem test_decode_csrrw : decodeWord 0x300110F3#32 = some (.csrrw 1#5 0x300#12 2#5) := by decide
theorem test_decode_csrrs : decodeWord 0xF14021F3#32 = some (.csrrs 3#5 0xF14#12 0#5) := by decide
theorem test_decode_csrrc : decodeWord 0x1002B273#32 = some (.csrrc 4#5 0x100#12 5#5) := by decide
theorem test_decode_csrrwi : decodeWord 0x340FD373#32 = some (.csrrwi 6#5 0x340#12 0x1F#5) := by decide
theorem test_decode_csrrsi : decodeWord 0x30446073#32 = some (.csrrsi 0#5 0x304#12 0x8#5) := by decide
theorem test_decode_csrrci : decodeWord 0x1800F3F3#32 = some (.csrrci 7#5 0x180#12 0x1#5) := by decide
theorem test_decode_ecall : decodeWord 0x00000073#32 = some .ecall := by decide
theorem test_decode_ebreak : decodeWord 0x00100073#32 = some .ebreak := by decide
theorem test_decode_sret : decodeWord 0x10200073#32 = some .sret := by decide
theorem test_decode_mret : decodeWord 0x30200073#32 = some .mret := by decide
theorem test_decode_wfi : decodeWord 0x10500073#32 = some .wfi := by decide
theorem test_decode_sfenceVma : decodeWord 0x12B50073#32 = some (.sfenceVma 10#5 11#5) := by decide

/-! ### One step (95_test_vectors.md 3 to 8, 96_test_vectors_privileged.md 10) -/

theorem test_lui_fills : (ran base 0xFFFFF2B7).map
    (fun t => (t.x 5#5, t.pc)) =
    some (0xFFFFF000#32, 0x80000004#32) := by decide
theorem test_lui_to_x0 : (ran base 0x12345037).map
    (fun t => (t.pc, t.x 0#5)) =
    some (0x80000004#32, 0#32) := by decide
theorem test_auipc_adds : (ran { base with pc := 0x80000010#32 } 0x00001517).map
    (fun t => (t.x 10#5, t.pc)) =
    some (0x80001010#32, 0x80000014#32) := by decide
theorem test_auipc_wraps : (ran base 0x80000297).map
    (fun t => (t.x 5#5, t.pc)) =
    some (0x0#32, 0x80000004#32) := by decide
theorem test_addi_wraps : (ran (put 6 0xFFFFFFFF#32 base) 0x7FF30293).map
    (fun t => (t.x 5#5, t.pc)) =
    some (0x7FE#32, 0x80000004#32) := by decide
theorem test_addi_to_x0 : (ran (put 6 0x7#32 base) 0x00530013).map
    (fun t => (t.pc, t.x 0#5)) =
    some (0x80000004#32, 0#32) := by decide
theorem test_slti_negative : (ran (put 6 0xFFFFFFFE#32 base) 0xFFF32293).map
    (fun t => (t.x 5#5, t.pc)) =
    some (0x1#32, 0x80000004#32) := by decide
theorem test_slti_minimum : (ran (put 6 0x80000000#32 base) 0x00032293).map
    (fun t => (t.x 5#5, t.pc)) =
    some (0x1#32, 0x80000004#32) := by decide
theorem test_sltiu_extends : (ran (put 6 0x5#32 base) 0xFFF33293).map
    (fun t => (t.x 5#5, t.pc)) =
    some (0x1#32, 0x80000004#32) := by decide
theorem test_sltiu_equal : (ran (put 6 0xFFFFFFFF#32 base) 0xFFF33293).map
    (fun t => (t.x 5#5, t.pc)) =
    some (0x0#32, 0x80000004#32) := by decide
theorem test_xori_runs : (ran (put 6 0x12345678#32 base) 0xFFF34293).map
    (fun t => (t.x 5#5, t.pc)) =
    some (0xEDCBA987#32, 0x80000004#32) := by decide
theorem test_ori_runs : (ran (put 6 0x1#32 base) 0x80036293).map
    (fun t => (t.x 5#5, t.pc)) =
    some (0xFFFFF801#32, 0x80000004#32) := by decide
theorem test_andi_runs : (ran (put 6 0x12345678#32 base) 0xFF037293).map
    (fun t => (t.x 5#5, t.pc)) =
    some (0x12345670#32, 0x80000004#32) := by decide
theorem test_slli_by_31 : (ran (put 6 0x3#32 base) 0x01F31293).map
    (fun t => (t.x 5#5, t.pc)) =
    some (0x80000000#32, 0x80000004#32) := by decide
theorem test_slli_drops_high_bit : (ran (put 6 0xC0000000#32 base) 0x00131293).map
    (fun t => (t.x 5#5, t.pc)) =
    some (0x80000000#32, 0x80000004#32) := by decide
theorem test_srli_by_4 : (ran (put 6 0x800000F0#32 base) 0x00435293).map
    (fun t => (t.x 5#5, t.pc)) =
    some (0x800000F#32, 0x80000004#32) := by decide
theorem test_srli_by_31 : (ran (put 6 0x80000000#32 base) 0x01F35293).map
    (fun t => (t.x 5#5, t.pc)) =
    some (0x1#32, 0x80000004#32) := by decide
theorem test_srai_negative : (ran (put 6 0x800000F0#32 base) 0x40435293).map
    (fun t => (t.x 5#5, t.pc)) =
    some (0xF800000F#32, 0x80000004#32) := by decide
theorem test_srai_positive : (ran (put 6 0x7FFFFFFF#32 base) 0x41F35293).map
    (fun t => (t.x 5#5, t.pc)) =
    some (0x0#32, 0x80000004#32) := by decide
theorem test_add_wraps : (ran (put 7 0x1#32 (put 6 0xFFFFFFFF#32 base)) 0x007302B3).map
    (fun t => (t.x 5#5, t.pc)) =
    some (0x0#32, 0x80000004#32) := by decide
theorem test_add_same_register : (ran (put 5 0x80000001#32 base) 0x005282B3).map
    (fun t => (t.x 5#5, t.pc)) =
    some (0x2#32, 0x80000004#32) := by decide
theorem test_sub_borrows : (ran (put 7 0x5#32 (put 6 0x3#32 base)) 0x407302B3).map
    (fun t => (t.x 5#5, t.pc)) =
    some (0xFFFFFFFE#32, 0x80000004#32) := by decide
theorem test_sub_negates_minimum : (ran (put 7 0x80000000#32 base) 0x407002B3).map
    (fun t => (t.x 5#5, t.pc)) =
    some (0x80000000#32, 0x80000004#32) := by decide
theorem test_sll_masks_amount : (ran (put 7 0x21#32 (put 6 0x1#32 base)) 0x007312B3).map
    (fun t => (t.x 5#5, t.pc)) =
    some (0x2#32, 0x80000004#32) := by decide
theorem test_sll_by_32 : (ran (put 7 0x20#32 (put 6 0xFFFFFFFF#32 base)) 0x007312B3).map
    (fun t => (t.x 5#5, t.pc)) =
    some (0xFFFFFFFF#32, 0x80000004#32) := by decide
theorem test_slt_less : (ran (put 7 0x7FFFFFFF#32 (put 6 0x80000000#32 base)) 0x007322B3).map
    (fun t => (t.x 5#5, t.pc)) =
    some (0x1#32, 0x80000004#32) := by decide
theorem test_slt_greater : (ran (put 7 0x80000000#32 (put 6 0x7FFFFFFF#32 base)) 0x007322B3).map
    (fun t => (t.x 5#5, t.pc)) =
    some (0x0#32, 0x80000004#32) := by decide
theorem test_sltu_greater : (ran (put 7 0x1#32 (put 6 0xFFFFFFFF#32 base)) 0x007332B3).map
    (fun t => (t.x 5#5, t.pc)) =
    some (0x0#32, 0x80000004#32) := by decide
theorem test_sltu_from_x0 : (ran (put 7 0x80000000#32 base) 0x007032B3).map
    (fun t => (t.x 5#5, t.pc)) =
    some (0x1#32, 0x80000004#32) := by decide
theorem test_xor_runs : (ran (put 7 0xFF00FF0#32 (put 6 0xFF00FF00#32 base)) 0x007342B3).map
    (fun t => (t.x 5#5, t.pc)) =
    some (0xF0F0F0F0#32, 0x80000004#32) := by decide
theorem test_srl_by_31 : (ran (put 7 0x1F#32 (put 6 0x80000000#32 base)) 0x007352B3).map
    (fun t => (t.x 5#5, t.pc)) =
    some (0x1#32, 0x80000004#32) := by decide
theorem test_srl_masks_amount : (ran (put 7 0x120#32 (put 6 0x80000000#32 base)) 0x007352B3).map
    (fun t => (t.x 5#5, t.pc)) =
    some (0x80000000#32, 0x80000004#32) := by decide
theorem test_sra_masks_amount : (ran (put 7 0x24#32 (put 6 0x80000000#32 base)) 0x407352B3).map
    (fun t => (t.x 5#5, t.pc)) =
    some (0xF8000000#32, 0x80000004#32) := by decide
theorem test_sra_positive : (ran (put 7 0x1E#32 (put 6 0x40000000#32 base)) 0x407352B3).map
    (fun t => (t.x 5#5, t.pc)) =
    some (0x1#32, 0x80000004#32) := by decide
theorem test_or_runs : (ran (put 7 0xFF00FF0#32 (put 6 0xFF00FF00#32 base)) 0x007362B3).map
    (fun t => (t.x 5#5, t.pc)) =
    some (0xFFF0FFF0#32, 0x80000004#32) := by decide
theorem test_and_runs : (ran (put 7 0xF0F0F0F#32 (put 6 0xFFFF00FF#32 base)) 0x007372B3).map
    (fun t => (t.x 5#5, t.pc)) =
    some (0xF0F000F#32, 0x80000004#32) := by decide
theorem test_jal_backward : (ran { base with pc := 0x80100000#32 } 0x800000EF).map
    (fun t => (t.x 1#5, t.pc)) =
    some (0x80100004#32, 0x80000000#32) := by decide
theorem test_jal_traps : (ran (put 1 0x55#32 base) 0x002000EF).map
    (fun t => (t.pc, t.mstatus, t.mepc, t.mcause, t.mtval, t.x 1#5)) =
    some (0x80000400#32, 0x1800#32, 0x80000000#32, 0x0#32, 0x80000002#32, 0x55#32) := by decide
theorem test_jalr_same_register : (ran (put 1 0x80000200#32 base) 0x000080E7).map
    (fun t => (t.x 1#5, t.pc)) =
    some (0x80000004#32, 0x80000200#32) := by decide
theorem test_jalr_traps : (ran { put 5 0x80000207#32 base with pc := 0x80000100#32 } 0x003282E7).map
    (fun t => (t.pc, t.mstatus, t.mepc, t.mcause, t.mtval, t.x 5#5)) =
    some (0x80000400#32, 0x1800#32, 0x80000100#32, 0x0#32, 0x8000020A#32, 0x80000207#32) := by decide
theorem test_beq_taken : (ran (put 6 0x7#32 (put 5 0x7#32 base)) 0x00628863).map
    (fun t => t.pc) =
    some 0x80000010#32 := by decide
theorem test_beq_traps : (ran base 0x00000363).map
    (fun t => (t.pc, t.mstatus, t.mepc, t.mcause, t.mtval, t.x 0#5)) =
    some (0x80000400#32, 0x1800#32, 0x80000000#32, 0x0#32, 0x80000006#32, 0#32) := by decide
theorem test_bne_backward : (ran { put 6 0x2#32 (put 5 0x1#32 base) with pc := 0x80000020#32 } 0xFE629CE3).map
    (fun t => t.pc) =
    some 0x80000018#32 := by decide
theorem test_bne_not_taken : (ran { put 5 0x1#32 base with pc := 0x80000020#32 } 0xFE529CE3).map
    (fun t => t.pc) =
    some 0x80000024#32 := by decide
theorem test_blt_taken : (ran (put 6 0x0#32 (put 5 0xFFFFFFFF#32 base)) 0x0062C463).map
    (fun t => t.pc) =
    some 0x80000008#32 := by decide
theorem test_blt_traps : (ran (put 6 0x0#32 (put 5 0xFFFFFFFF#32 base)) 0x7E62CFE3).map
    (fun t => (t.pc, t.mstatus, t.mepc, t.mcause, t.mtval)) =
    some (0x80000400#32, 0x1800#32, 0x80000000#32, 0x0#32, 0x80000FFE#32) := by decide
theorem test_bge_equal : (ran { put 6 0x5#32 (put 5 0x5#32 base) with pc := 0x80002000#32 } 0x8062D063).map
    (fun t => t.pc) =
    some 0x80001000#32 := by decide
theorem test_bge_not_taken : (ran (put 6 0x0#32 (put 5 0x80000000#32 base)) 0x0062D463).map
    (fun t => t.pc) =
    some 0x80000004#32 := by decide
theorem test_bltu_taken : (ran (put 6 0xFFFFFFFF#32 (put 5 0x1#32 base)) 0x0062E463).map
    (fun t => t.pc) =
    some 0x80000008#32 := by decide
theorem test_bltu_not_taken : (ran (put 6 0x1#32 (put 5 0xFFFFFFFF#32 base)) 0x0062E463).map
    (fun t => t.pc) =
    some 0x80000004#32 := by decide
theorem test_bgeu_not_taken : (ran (put 6 0x1#32 (put 5 0x0#32 base)) 0x0062F463).map
    (fun t => t.pc) =
    some 0x80000004#32 := by decide
theorem test_bgeu_taken : (ran (put 6 0x7FFFFFFF#32 (put 5 0x80000000#32 base)) 0x0062F463).map
    (fun t => t.pc) =
    some 0x80000008#32 := by decide
theorem test_lb_negative : (ran dataBase 0x00150283).map
    (fun t => (t.x 5#5, t.pc)) =
    some (0xFFFFFF80#32, 0x80000004#32) := by decide
theorem test_lb_positive : (ran dataBase 0x00250283).map
    (fun t => (t.x 5#5, t.pc)) =
    some (0x34#32, 0x80000004#32) := by decide
theorem test_lh_upper : (ran dataBase 0x00251283).map
    (fun t => (t.x 5#5, t.pc)) =
    some (0xFFFF9234#32, 0x80000004#32) := by decide
theorem test_lh_traps : (ran (put 5 0x55#32 dataBase) 0x00151283).map
    (fun t => (t.pc, t.mstatus, t.mepc, t.mcause, t.mtval, t.x 5#5)) =
    some (0x80000400#32, 0x1800#32, 0x80000000#32, 0x4#32, 0x80001001#32, 0x55#32) := by decide
theorem test_lw_below_base : (ran (put 11 0x80001004#32 dataBase) 0xFFC5A283).map
    (fun t => (t.x 5#5, t.pc)) =
    some (0x923480FF#32, 0x80000004#32) := by decide
theorem test_lw_traps : (ran (put 11 0x1000#32 dataBase) 0x0005A283).map
    (fun t => (t.pc, t.mstatus, t.mepc, t.mcause, t.mtval, t.x 5#5)) =
    some (0x80000400#32, 0x1800#32, 0x80000000#32, 0x5#32, 0x1000#32, 0#32) := by decide
theorem test_lbu_runs : (ran dataBase 0x00054283).map
    (fun t => (t.x 5#5, t.pc)) =
    some (0xFF#32, 0x80000004#32) := by decide
theorem test_lhu_runs : (ran dataBase 0x00255283).map
    (fun t => (t.x 5#5, t.pc)) =
    some (0x9234#32, 0x80000004#32) := by decide
theorem test_sb_one_byte : (ran (put 6 0x123456AB#32 dataBase) 0x006500A3).map
    (fun t => (t.pc, t.mem.load 0x80001000 .word)) =
    some (0x80000004#32, 0x9234ABFF#32) := by decide
theorem test_sb_traps : (ran (put 6 0x1#32 (put 11 0x2000000#32 dataBase)) 0x00658023).map
    (fun t => (t.pc, t.mstatus, t.mepc, t.mcause, t.mtval)) =
    some (0x80000400#32, 0x1800#32, 0x80000000#32, 0x7#32, 0x2000000#32) := by decide
theorem test_sh_upper : (ran (put 6 0x123456AB#32 dataBase) 0x00651123).map
    (fun t => (t.pc, t.mem.load 0x80001000 .word)) =
    some (0x80000004#32, 0x56AB80FF#32) := by decide
theorem test_sh_traps : (ran (put 6 0xAAAA#32 dataBase) 0x006510A3).map
    (fun t => (t.pc, t.mstatus, t.mepc, t.mcause, t.mtval)) =
    some (0x80000400#32, 0x1800#32, 0x80000000#32, 0x6#32, 0x80001001#32) := by decide
theorem test_sw_far : (ran (put 11 0x80000801#32 (put 6 0x1#32 dataBase)) 0x7E65AFA3).map
    (fun t => (t.pc, t.mem.load 0x80001000 .word)) =
    some (0x80000004#32, 0x1#32) := by decide
theorem test_sw_traps : (ran (put 6 0x1#32 (put 11 0x40000000#32 dataBase)) 0x0065A023).map
    (fun t => (t.pc, t.mstatus, t.mepc, t.mcause, t.mtval)) =
    some (0x80000400#32, 0x1800#32, 0x80000000#32, 0x7#32, 0x40000000#32) := by decide
theorem test_fence_runs : (ran dataBase 0x0310000F).map
    (fun t => t.pc) =
    some 0x80000004#32 := by decide
theorem test_lrW_replaces :
    (ran { hold 0x80001000 0x2A#32 dataBase with reservation := ⟨true, 0x80002000#32⟩ }
      0x100522AF).map
    (fun t => (t.x 5#5, t.pc, t.reservation)) =
    some (0x2A#32, 0x80000004#32, (⟨true, 0x80001000#32⟩ : Reservation)) := by decide
theorem test_lrW_traps :
    (ran { put 11 0x40000000#32 dataBase with reservation := ⟨true, 0x80001000#32⟩ }
      0x1005A2AF).map
    (fun t => (t.pc, t.mstatus, t.mepc, t.mcause, t.mtval, t.x 5#5)) =
    some (0x80000400#32, 0x1800#32, 0x80000000#32, 0x5#32, 0x40000000#32, 0#32) := by decide
theorem test_scW_succeeds :
    (ran { hold 0x80001000 0x2A#32 (put 7 0x2B#32 dataBase) with reservation := ⟨true, 0x80001000#32⟩ }
      0x187523AF).map
    (fun t => (t.x 7#5, t.pc, t.reservation.valid, t.mem.load 0x80001000 .word)) =
    some (0x0#32, 0x80000004#32, false, 0x2B#32) := by decide
theorem test_scW_fails :
    (ran { hold 0x80001000 0x2A#32 (put 6 0x99#32 (put 7 0x2B#32 dataBase)) with
        reservation := ⟨true, 0x80001004#32⟩ }
      0x1875232F).map
    (fun t => (t.x 6#5, t.pc, t.reservation.valid)) =
    some (0x1#32, 0x80000004#32, false) := by decide
theorem test_amoswapW_runs : (ran (hold 0x80001000 0x11111111#32 (put 5 0x22222222#32 dataBase)) 0x0C5522AF).map
    (fun t => (t.x 5#5, t.pc, t.mem.load 0x80001000 .word)) =
    some (0x11111111#32, 0x80000004#32, 0x22222222#32) := by decide
theorem test_amoaddW_same_register : (ran (hold 0x80001000 0x5#32 (put 6 0x1#32 dataBase)) 0x0065252F).map
    (fun t => (t.x 10#5, t.pc, t.mem.load 0x80001000 .word)) =
    some (0x5#32, 0x80000004#32, 0x6#32) := by decide
theorem test_amoaddW_traps : (ran (put 6 0x1#32 (put 11 0x80001002#32 dataBase)) 0x0065A2AF).map
    (fun t => (t.pc, t.mstatus, t.mepc, t.mcause, t.mtval, t.x 5#5)) =
    some (0x80000400#32, 0x1800#32, 0x80000000#32, 0x6#32, 0x80001002#32, 0#32) := by decide
theorem test_amoxorW_runs : (ran (hold 0x80001000 0xF0F00FF#32 (put 6 0xFFFF0000#32 dataBase)) 0x206522AF).map
    (fun t => (t.x 5#5, t.pc, t.mem.load 0x80001000 .word)) =
    some (0xF0F00FF#32, 0x80000004#32, 0xF0F000FF#32) := by decide
theorem test_amoandW_runs : (ran (hold 0x80001000 0xF0F00FF#32 (put 6 0xFFFF0000#32 dataBase)) 0x606522AF).map
    (fun t => (t.x 5#5, t.pc, t.mem.load 0x80001000 .word)) =
    some (0xF0F00FF#32, 0x80000004#32, 0xF0F0000#32) := by decide
theorem test_amoorW_exchanges : (ran (hold 0x80001000 0xF0F00FF#32 (put 6 0xFFFF0000#32 dataBase)) 0x406522AF).map
    (fun t => (t.x 5#5, t.pc, t.mem.load 0x80001000 .word)) =
    some (0xF0F00FF#32, 0x80000004#32, 0xFFFF00FF#32) := by decide
theorem test_amoorW_traps : (ran (put 6 0x1#32 (put 11 0x40000000#32 dataBase)) 0x4065A2AF).map
    (fun t => (t.pc, t.mstatus, t.mepc, t.mcause, t.mtval, t.x 5#5)) =
    some (0x80000400#32, 0x1800#32, 0x80000000#32, 0x7#32, 0x40000000#32, 0#32) := by decide
theorem test_amominW_runs : (ran (hold 0x80001000 0xFFFFFFFF#32 (put 6 0x1#32 dataBase)) 0x806522AF).map
    (fun t => (t.x 5#5, t.pc, t.mem.load 0x80001000 .word)) =
    some (0xFFFFFFFF#32, 0x80000004#32, 0xFFFFFFFF#32) := by decide
theorem test_amomaxW_runs : (ran (hold 0x80001000 0xFFFFFFFF#32 (put 6 0x1#32 dataBase)) 0xA06522AF).map
    (fun t => (t.x 5#5, t.pc, t.mem.load 0x80001000 .word)) =
    some (0xFFFFFFFF#32, 0x80000004#32, 0x1#32) := by decide
theorem test_amominuW_runs : (ran (hold 0x80001000 0xFFFFFFFF#32 (put 6 0x0#32 dataBase)) 0xC06522AF).map
    (fun t => (t.x 5#5, t.pc, t.mem.load 0x80001000 .word)) =
    some (0xFFFFFFFF#32, 0x80000004#32, 0x0#32) := by decide
theorem test_amomaxuW_runs : (ran (hold 0x80001000 0x1#32 (put 6 0xFFFFFFFF#32 dataBase)) 0xE06522AF).map
    (fun t => (t.x 5#5, t.pc, t.mem.load 0x80001000 .word)) =
    some (0x1#32, 0x80000004#32, 0xFFFFFFFF#32) := by decide
theorem test_csrrw_reserved_mpp : (ran { put 6 0x1008#32 base with mstatus := 0x800#32 } 0x30031073).map
    (fun t => (t.pc, t.mstatus, t.x 0#5)) =
    some (0x80000004#32, 0x808#32, 0#32) := by decide
theorem test_csrrw_mip_mask : (ran (put 6 0xFFFFFFFF#32 base) 0x344312F3).map
    (fun t => (t.x 5#5, t.pc, t.mipSoft)) =
    some (0x0#32, 0x80000004#32, 0x222#32) := by decide
theorem test_csrrs_mip_lines :
    (ran { base with mtime := 0x64#64, mtimecmp := 0x64#64, msip := true, mipSoft := 0x20#32 }
      0x344022F3).map
    (fun t => (t.x 5#5, t.pc)) =
    some (0xA8#32, 0x80000004#32) := by decide
theorem test_csrrs_traps : (ran (put 6 0x0#32 (put 5 0x55#32 base)) 0xF14322F3).map
    (fun t => (t.pc, t.mstatus, t.mepc, t.mcause, t.mtval, t.x 5#5)) =
    some (0x80000400#32, 0x1800#32, 0x80000000#32, 0x2#32, 0xF14322F3#32, 0x55#32) := by decide
theorem test_csrrc_runs : (ran { put 6 0x1808#32 base with mstatus := 0xC19AA#32 } 0x300332F3).map
    (fun t => (t.x 5#5, t.pc, t.mstatus)) =
    some (0xC19AA#32, 0x80000004#32, 0xC01A2#32) := by decide
theorem test_csrrwi_runs : (ran { base with mscratch := 0xFFFFFFFF#32 } 0x340FD2F3).map
    (fun t => (t.x 5#5, t.pc, t.mscratch)) =
    some (0xFFFFFFFF#32, 0x80000004#32, 0x1F#32) := by decide
theorem test_csrrsi_runs : (ran { base with mstatus := 0x1800#32 } 0x300462F3).map
    (fun t => (t.x 5#5, t.pc, t.mstatus)) =
    some (0x1800#32, 0x80000004#32, 0x1808#32) := by decide
theorem test_csrrci_runs : (ran { base with mstatus := 0x1888#32 } 0x300472F3).map
    (fun t => (t.x 5#5, t.pc, t.mstatus)) =
    some (0x1888#32, 0x80000004#32, 0x1880#32) := by decide
theorem test_ecall_from_user_delegated :
    (ran { base with priv := .U, medeleg := 0x100#32, mstatus := 0x2#32, mepc := 0x11111110#32, mcause := 0x77#32 }
      0x00000073).map
    (fun t => (t.pc, t.mstatus, t.mepc, t.sepc, t.mcause, t.scause, t.stval)) =
    some (0x80000800#32, 0x20#32, 0x11111110#32, 0x80000000#32, 0x77#32, 0x8#32, 0x0#32) := by decide
theorem test_ecall_from_supervisor_delegated :
    (ran { base with priv := .S, medeleg := 0x200#32, mstatus := 0x2#32 }
      0x00000073).map
    (fun t => (t.pc, t.mstatus, t.sepc, t.scause, t.stval)) =
    some (0x80000800#32, 0x120#32, 0x80000000#32, 0x9#32, 0x0#32) := by decide
theorem test_ebreak_traps : (ran { base with priv := .U, medeleg := 0x8#32, pc := 0x80000010#32 } 0x00100073).map
    (fun t => (t.pc, t.mstatus, t.sepc, t.scause, t.stval)) =
    some (0x80000800#32, 0x0#32, 0x80000010#32, 0x3#32, 0x80000010#32) := by decide
theorem test_sret_from_machine : (ran { base with mstatus := 0x1920#32, sepc := 0x80010004#32 } 0x10200073).map
    (fun t => (t.pc, t.priv, t.mstatus)) =
    some (0x80010004#32, Priv.S, 0x1822#32) := by decide
theorem test_sret_from_supervisor :
    (ran { base with priv := .S, mstatus := 0x102#32, sepc := 0x80010004#32 }
      0x10200073).map
    (fun t => (t.pc, t.mstatus)) =
    some (0x80010004#32, 0x20#32) := by decide
theorem test_mret_to_supervisor : (ran { base with mstatus := 0x880#32, mepc := 0x80200000#32 } 0x30200073).map
    (fun t => (t.pc, t.priv, t.mstatus)) =
    some (0x80200000#32, Priv.S, 0x88#32) := by decide
theorem test_mret_traps : (ran { base with priv := .U } 0x30200073).map
    (fun t => (t.pc, t.mstatus, t.mepc, t.mcause, t.mtval)) =
    some (0x80000400#32, 0x0#32, 0x80000000#32, 0x2#32, 0x30200073#32) := by decide
theorem test_wfi_supervisor : (ran { base with priv := .S, pc := 0x80201000#32 } 0x10500073).map
    (fun t => t.pc) =
    some 0x80201004#32 := by decide
theorem test_wfi_traps : (ran { base with priv := .U } 0x10500073).map
    (fun t => (t.pc, t.mstatus, t.mepc, t.mcause, t.mtval)) =
    some (0x80000400#32, 0x0#32, 0x80000000#32, 0x2#32, 0x10500073#32) := by decide
theorem test_sfenceVma_machine : (ran (put 11 0x7#32 (put 10 0xC0001234#32 base)) 0x12B50073).map
    (fun t => t.pc) =
    some 0x80000004#32 := by decide
theorem test_sfenceVma_traps : (ran { base with priv := .U } 0x12000073).map
    (fun t => (t.pc, t.mstatus, t.mepc, t.mcause, t.mtval)) =
    some (0x80000400#32, 0x0#32, 0x80000000#32, 0x2#32, 0x12000073#32) := by decide
theorem test_mul_signs : (ran (put 6 0xDEADBEEF#32 (put 7 0xCAFE#32 base)) 0x027302B3).map (·.x 5#5) =
    some 0x90C0722#32 := by decide
theorem test_mul_minimum : (ran (put 6 0x80000000#32 (put 7 0xFFFFFFFF#32 base)) 0x027302B3).map (·.x 5#5) =
    some 0x80000000#32 := by decide
theorem test_mulh_signs : (ran (put 6 0xDEADBEEF#32 (put 7 0xCAFE#32 base)) 0x027312B3).map (·.x 5#5) =
    some 0xFFFFE594#32 := by decide
theorem test_mulh_minimum : (ran (put 6 0x80000000#32 (put 7 0xFFFFFFFF#32 base)) 0x027312B3).map (·.x 5#5) =
    some 0x0#32 := by decide
theorem test_mulhsu_signs : (ran (put 6 0xDEADBEEF#32 (put 7 0xCAFE#32 base)) 0x027322B3).map (·.x 5#5) =
    some 0xFFFFE594#32 := by decide
theorem test_mulhsu_minimum : (ran (put 6 0x80000000#32 (put 7 0xFFFFFFFF#32 base)) 0x027322B3).map (·.x 5#5) =
    some 0x80000000#32 := by decide
theorem test_mulhu_signs : (ran (put 6 0xDEADBEEF#32 (put 7 0xCAFE#32 base)) 0x027332B3).map (·.x 5#5) =
    some 0xB092#32 := by decide
theorem test_mulhu_minimum : (ran (put 6 0x80000000#32 (put 7 0xFFFFFFFF#32 base)) 0x027332B3).map (·.x 5#5) =
    some 0x7FFFFFFF#32 := by decide
theorem test_div_quotient : (ran (put 6 0xFFFFFFF9#32 (put 7 0x3#32 base)) 0x027342B3).map (·.x 5#5) =
    some 0xFFFFFFFE#32 := by decide
theorem test_div_by_zero : (ran (put 6 0x80000000#32 (put 7 0x0#32 base)) 0x027342B3).map (·.x 5#5) =
    some 0xFFFFFFFF#32 := by decide
theorem test_divu_quotient : (ran (put 6 0x80000000#32 (put 7 0x2#32 base)) 0x027352B3).map (·.x 5#5) =
    some 0x40000000#32 := by decide
theorem test_divu_by_zero : (ran (put 6 0x80000000#32 (put 7 0x0#32 base)) 0x027352B3).map (·.x 5#5) =
    some 0xFFFFFFFF#32 := by decide
theorem test_rem_remainder : (ran (put 6 0xFFFFFFF9#32 (put 7 0x3#32 base)) 0x027362B3).map (·.x 5#5) =
    some 0xFFFFFFFF#32 := by decide
theorem test_rem_by_zero : (ran (put 6 0x80000000#32 (put 7 0x0#32 base)) 0x027362B3).map (·.x 5#5) =
    some 0x80000000#32 := by decide
theorem test_remu_remainder : (ran (put 6 0xDEADBEEF#32 (put 7 0xCAFE#32 base)) 0x027372B3).map (·.x 5#5) =
    some 0x9F95#32 := by decide
theorem test_remu_by_zero : (ran (put 6 0x80000000#32 (put 7 0x0#32 base)) 0x027372B3).map (·.x 5#5) =
    some 0x80000000#32 := by decide

/-! ### More of one step: translation and interrupts (96_test_vectors_privileged.md 11, 12) -/

/-- S-mode with part of the page table of the spec's vectors (96_test_vectors_privileged.md 11). -/
def paged : State :=
  { (hold 0x80010004 0x20004401#32 <| hold 0x80010008 0x200000CF#32 <| hold 0x80010010 0x10000001#32 <|
      hold 0x80010800 0x200000CF#32 <| hold 0x80011000 0x2000800F#32 <| hold 0x8001100C 0x20008C05#32 <|
      hold 0x80011014 0x200090C3#32 <| hold 0x80011018 0x20009401#32 <| hold 0x8001101C 0x4000000F#32 <|
      hold 0x80020000 0x11112222#32 base) with priv := .S, satp := 0x80080010#32 }

theorem test_sv32_load_sets_accessed : (ran (put 10 0x400000#32 paged) 0x00052283).map
    (fun t => (t.x 5#5, t.pc, t.mem.load 0x80011000 .word)) =
    some (0x11112222#32, 0x80000004#32, 0x2000804F#32) := by decide
theorem test_sv32_store_sets_dirty : (ran (put 6 0xCAFEF00D#32 (put 10 0x400000#32 paged)) 0x00652223).map
    (fun t => (t.pc, t.mem.load 0x80011000 .word, t.mem.load 0x80020004 .word)) =
    some (0x80000004#32, 0x200080CF#32, 0xCAFEF00D#32) := by decide
theorem test_sv32_beyond_32_bits : (ran (put 10 0x407000#32 paged) 0x00052283).map
    (fun t => (t.pc, t.mcause, t.mtval, t.mem.load 0x8001101C .word)) =
    some (0x80000400#32, 5#32, 0x407000#32, 0x4000004F#32) := by decide
theorem test_sv32_fetch_page_fault : (ran { paged with pc := 0x405000#32 } 0x00000013).map
    (fun t => (t.pc, t.mepc, t.mcause, t.mtval)) =
    some (0x80000400#32, 0x405000#32, 12#32, 0x405000#32) := by decide
/-- MTI and MSI are pending. -/
def pending : State :=
  { base with mstatus := 8#32, mie := 0x888#32, msip := true, mtime := 5#64, mtimecmp := 5#64 }

theorem test_interrupt_timer_before_software : (ran { pending with mtvec := 0x80000401#32 } 0x00000013).map
    (fun t => (t.pc, t.mstatus, t.mepc, t.mcause, t.mtval)) =
    some (0x8000041C#32, 0x1880#32, 0x80000000#32, 0x80000007#32, 0#32) := by decide
theorem test_interrupt_software_line : (ran { base with
      mstatus := 8#32, mie := 8#32, inputs := [[.softwareIrq true]] } 0x00000013).map
    (fun t => (t.pc, t.mepc, t.mcause)) = some (0x80000400#32, 0x80000000#32, 0x80000003#32) := by decide
theorem test_foreign_clint_store : (applyEvent base (.foreignClintStore 0x200BFFC#32 0x12345678#32)).mtime =
    0x1234567800000000#64 := by decide
theorem test_reset_discards_instruction :
    let t := applyEvent { hold 0x80000000 0x123452B7#32 base with extIrqM := true } .reset
    (t.pc, t.priv, t.mem.load 0x80000000 .word, t.pcTrace, t.extIrqM) =
      (0x80000000#32, Priv.M, 0x123452B7#32, [], true) := by decide
theorem test_interrupt_disabled : (ran { pending with mstatus := 0#32 } 0x00000013).map (·.pc) =
    some 0x80000004#32 := by decide
theorem test_interrupt_delegated : (ran { base with
      priv := .S, mstatus := 2#32, mie := 0x222#32, mipSoft := 0x222#32, mideleg := 0x222#32 } 0x00000013).map
    (fun t => (t.pc, t.priv, t.mstatus, t.sepc, t.scause)) =
    some (0x80000800#32, Priv.S, 0x120#32, 0x80000000#32, 0x80000009#32) := by decide
theorem test_illegal_word : (ran base 0x0000100F).map (fun t => (t.pc, t.mepc, t.mcause, t.mtval)) =
    some (0x80000400#32, 0x80000000#32, 2#32, 0x100F#32) := by decide
theorem test_first_step_after_reset : (match step (State.reset.withFetchWord 32 0x123452B7) with
    | .next t => some (t.x 5#5, t.pc)
    | _ => none) = some (0x12345000#32, 0x80000004#32) := by decide
theorem test_decodeTableWord : decodeTableWord 32 0x123452B7 = some (.lui 5#5 0x12345#20) := by decide

/-! ### Each check of WellFormed refuses an ill-formed term -/

theorem test_odd_jal_refused : (Instr.jal 1#5 3#21).wellFormed = false := by decide
theorem test_odd_branches_refused :
    [Instr.beq 1#5 2#5 1#13, .bne 1#5 2#5 3#13, .blt 1#5 2#5 5#13, .bge 1#5 2#5 7#13, .bltu 1#5 2#5 9#13,
      .bgeu 1#5 2#5 0x1FFF#13].all (fun i => i.wellFormed == false) = true := by decide
theorem test_even_jump_accepted : (Instr.jal 1#5 2#21).wellFormed = true := by decide

/-! ### States and operands that meet the hypotheses of each statement -/

theorem witness_DecodeOfEncodeReturnsInstruction : (Instr.jal 31#5 0x1FFFFE#21).wellFormed = true := by decide
theorem witness_EncodeOfDecodeReturnsWord : decodeWord 0xE7F0AF2F#32 = some (.amomaxuW 30#5 1#5 31#5 true true) := by
  decide
theorem witness_EveryWordMatchesAtMostOneRow :
    (∃ r ∈ opcodeTable, 0x12B50073#32 &&& r.mask = r.pat) ∧
    (∃ r, opcodeTable[0]? = some r ∧ 0x12345037#32 &&& r.mask = r.pat) ∧
    ∀ r ∈ opcodeTable, 0xFFFFFFFF#32 &&& r.mask ≠ r.pat :=
  ⟨by decide, ⟨_, rfl, by decide⟩, by decide⟩
theorem witness_WordsOfNoRowAreIllegal : ∀ r ∈ opcodeTable, 0x0000100F#32 &&& r.mask ≠ r.pat := by decide
theorem witness_StepRunsTheDecodedInstruction :
    (atBoundary pending).pendingInterrupt = some .mti ∧
    ((atBoundary base).pendingInterrupt = none ∧
      (∃ u, fetch (atBoundary (hold 0x80000000 0x13#32 base)) = .done 0x13#32 u) ∧
      decodeWord 0x13#32 = some (.addi 0#5 0#5 0#12)) ∧
    (∃ u, fetch (atBoundary base) = .done 0#32 u) ∧ decodeWord 0#32 = none :=
  ⟨by decide, ⟨by decide, ⟨_, rfl⟩, by decide⟩, ⟨_, rfl⟩, by decide⟩
theorem witness_BytesAtThePcAreRun :
    let s := hold 0x803FFFFC 0x123452B7#32 { base with pc := 0x803FFFFC#32 }
    (atBoundary s).pendingInterrupt = none ∧ plainRam (atBoundary s) (atBoundary s).pc 4 ∧
      (atBoundary s).fetchWindow = [] ∧ (Instr.lui 5#5 0x12345#20).wellFormed = true ∧
      decodeWord (wordAt (atBoundary s).mem (atBoundary s).pc.toNat) = some (.lui 5#5 0x12345#20) := by
  intro s; and_intros <;> decide
theorem witness_FailedFetchesTrap :
    ((atBoundary { base with pc := 0#32 }).pendingInterrupt = none ∧
      (∃ u, fetch (atBoundary { base with pc := 0#32 }) = .raise .instructionAccessFault u) ∧
      physAccessOk base.config ((0#32).setWidth 34) 4 .fetch = false ∧ base.translates = false) ∧
    physAccessOk base.config (base.pc.setWidth 34) 4 .fetch = true ∧
    ((atBoundary { paged with pc := 0x405000#32 }).pendingInterrupt = none ∧
      (∃ u, fetch (atBoundary { paged with pc := 0x405000#32 }) = .raise .instructionPageFault u)) :=
  ⟨⟨by decide, ⟨_, rfl⟩, by decide, by decide⟩, by decide, by decide, ⟨_, rfl⟩⟩
theorem witness_LegalIsKeptByEveryStep : ∃ t, Legal base ∧ step base = .next t := by
  refine ⟨_, ⟨by decide, by decide, by decide, by decide, ⟨?_, ?_, ?_, ?_, ?_, ?_, ?_, ?_, ?_, ?_, ?_⟩, by decide,
    Nat.zero_le _, Nat.zero_le _, ?_⟩, rfl⟩ <;> decide
theorem witness_ExternalResetLeavesTheSpecsValues :
    let s := put 10 0x80001000#32 (hold 0x80000000 0x00A52023#32 base)
    Memory.wf s.mem ∧ ∃ u, afterBoundary s = .next u ∧ u.mem.read 0x80001003 ≠ s.mem.read 0x80001003 :=
  ⟨by decide, _, rfl, by decide⟩
theorem witness_RegisterInstructionsCompute :
    0x80000000#32 = (put 6 0x80000000#32 base).x 6#5 ∧ 0x21#32 = (put 7 0x21#32 base).x 7#5 := by decide
theorem witness_MultiplicationsReturnTheirHalf :
    0x80000000#32 = (put 6 0x80000000#32 base).x 6#5 ∧ 0xFFFFFFFF#32 = (put 7 0xFFFFFFFF#32 base).x 7#5 := by decide
theorem witness_DivisionsFollowTheTable :
    (base.x 7#5 = 0#32) ∧
    ((put 6 0x80000000#32 base).x 6#5 = 0x80000000#32 ∧ (put 7 0xFFFFFFFF#32 base).x 7#5 = 0xFFFFFFFF#32) ∧
    ((put 7 1#32 base).x 7#5 ≠ 0#32 ∧
      ¬ ((put 6 0x80000000#32 base).x 6#5 = 0x80000000#32 ∧ (put 7 1#32 base).x 7#5 = 0xFFFFFFFF#32)) := by decide
theorem witness_JumpsLinkAndRedirect :
    wordAligned 0x80000000#32 ∧ 0x80000000#32 = BitVec.ofInt 32 ((0x80100000#32).toInt + (0x100000#21).toInt) ∧
    0x80000000#32 = BitVec.ofNat 32
      ((BitVec.ofInt 32 (((put 6 0x80000800#32 base).x 6#5).toInt + (0x801#12).toInt)).toNat / 2 * 2) := by decide
theorem witness_BranchesFollowTheirCondition :
    let s := put 5 0xFFFFFFFF#32 base
    wordAligned (BitVec.ofInt 32 (s.pc.toInt + (0x1000#13).toInt)) ∧
    s.x 5#5 = s.x 5#5 ∧ s.x 5#5 ≠ s.x 6#5 ∧ (s.x 5#5).toInt < (s.x 6#5).toInt ∧
    ¬ (s.x 6#5).toInt ≤ (s.x 5#5).toInt ∧ (s.x 6#5).toNat < (s.x 5#5).toNat ∧
    ¬ (s.x 5#5).toNat < (s.x 6#5).toNat := by decide
theorem witness_MisalignedTargetsRaise :
    ¬ wordAligned (BitVec.ofInt 32 (base.pc.toInt + (0xFFFFE#21).toInt)) ∧
    ¬ wordAligned (BitVec.ofNat 32
      ((BitVec.ofInt 32 (((put 5 0x80000207#32 base).x 5#5).toInt + (3#12).toInt)).toNat / 2 * 2)) ∧
    ¬ wordAligned (BitVec.ofInt 32 (base.pc.toInt + (0xFFE#13).toInt)) ∧ base.pc.toNat % 4 = 0 ∧
    (0xFFFFE#21).toNat % 2 = 0 ∧ (0xFFE#13).toNat % 2 = 0 := by decide
/-- A platform with a device of 16 bytes at 0x10000000. -/
def withDevice : State :=
  { base with config := { base.config with regions := [⟨0x10000000, 16, .device, true, true, true⟩] } }

theorem witness_AccessesFollowTheAddressMap :
    2 ^ 32 ≤ (0x100000000#34 : PAddr).toNat ∧
    (base.config.wf = true ∧ ramBase ≤ (0x803FFFFC#34 : PAddr).toNat ∧
      (0x803FFFFC#34 : PAddr).toNat + 4 ≤ ramBase + base.config.ramSize) ∧
    (inRam base.config (0x0200BFFC#34 : PAddr).toNat 4 = false ∧
      (0x0200BFFC#34 : PAddr).toNat = clintWordAddress base.config .mtimeHigh) ∧
    ((∀ r, 4 = 4 → (0x1000000C#34 : PAddr).toNat ≠ clintWordAddress withDevice.config r) ∧
      withDevice.config.regions = [] ++ ⟨0x10000000, 16, .device, true, true, true⟩ :: [] ∧
      regionContains ⟨0x10000000, 16, .device, true, true, true⟩ (0x1000000C#34 : PAddr).toNat 4 ∧
      regionTakes ⟨0x10000000, 16, .device, true, true, true⟩ .store ∧
      ¬ regionTakes ⟨0x10000000, 16, .memory, true, true, false⟩ .store) ∧
    (∀ q ∈ withDevice.config.regions, ¬ regionContains q (0x1000000D#34 : PAddr).toNat 4) ∧
    inRam base.config (0x80400000#34 : PAddr).toNat 1 = false ∧ plainRam base 0x803FFFFF#32 1 := by
  and_intros <;> first | decide | (intro r _; cases r <;> decide)

/-- The last word of RAM is in x10. -/
def atEnd : State := put 10 0x803FFFFC#32 base

theorem reaches_plain {s : State} {ea : Word} {n : Nat} {k : AccessKind} (h : s.translates = false)
    (m : physTarget s.config (ea.setWidth 34) n k = some .memory) : reaches s ea n k (ea.setWidth 34) s :=
  ⟨translate_off h ea k, m⟩

theorem witness_LoadsReturnTheBytesTheyReach :
    (0x803FFFFF#32 = BitVec.ofInt 32 ((atEnd.x 10#5).toInt + (3#12).toInt) ∧
      reaches atEnd 0x803FFFFF#32 1 .load 0x803FFFFF#34 atEnd) ∧
    reaches atEnd 0x803FFFFE#32 2 .load 0x803FFFFE#34 atEnd ∧
    reaches atEnd 0x80000000#32 4 .load 0x80000000#34 atEnd ∧
    ∃ u, reaches paged 0x400000#32 4 .load 0x80020000#34 u :=
  ⟨⟨by decide, reaches_plain (by decide) (by decide)⟩, reaches_plain (by decide) (by decide),
    reaches_plain (by decide) (by decide), _, rfl, rfl⟩
theorem witness_StoresWriteTheBytesTheyReach : Memory.wf atEnd.mem ∧
    reaches atEnd 0x803FFFFF#32 1 .store 0x803FFFFF#34 atEnd ∧
    reaches atEnd 0x803FFFFE#32 2 .store 0x803FFFFE#34 atEnd ∧
    reaches atEnd 0x803FFFFC#32 4 .store 0x803FFFFC#34 atEnd :=
  ⟨by decide, reaches_plain (by decide) (by decide), reaches_plain (by decide) (by decide),
    reaches_plain (by decide) (by decide)⟩
theorem witness_LoadsAfterAStoreReturnItsParts :
    0x803FFFFC#32 = BitVec.ofInt 32 ((atEnd.x 10#5).toInt + (0#12).toInt) ∧ (0x803FFFFC#32).toNat % 4 = 0 ∧
    plainRam atEnd 0x803FFFFC#32 4 ∧ Memory.wf atEnd.mem ∧
    ∃ t, exec (.sw 10#5 10#5 0#12) atEnd = .next t ∧
      BitVec.ofInt 32 ((t.x 10#5).toInt + (3#12).toInt) = 0x803FFFFC#32 + BitVec.ofNat 32 3 :=
  ⟨by decide, by decide, by decide, by decide, _, rfl, by decide⟩
theorem witness_MisalignedAccessesRaise :
    let s := put 10 0xFFFFFFFF#32 base
    (0xFFFFFFFF#32 = BitVec.ofInt 32 ((s.x 10#5).toInt + (0#12).toInt) ∧ (0xFFFFFFFF#32).toNat % 2 ≠ 0 ∧
      (0xFFFFFFFF#32).toNat % 4 ≠ 0) ∧ 0xFFFFFFFF#32 = s.x 10#5 := by decide
theorem witness_FailedAccessesTrap :
    (∃ u, Machine.translate paged 0x403000#32 .load = .raise .loadPageFault u) ∧
    (∃ u, Machine.translate paged 0x1000000#32 .store = .raise .storeAmoAccessFault u) ∧
    (∃ pa u, Machine.translate paged 0x407000#32 .load = .done pa u ∧ physAccessOk u.config pa 4 .load = false) ∧
    (∃ u, Machine.translate base 0x40000000#32 .store = .done 0x40000000#34 u ∧
      physAccessOk u.config 0x40000000#34 1 .store = false) :=
  ⟨⟨_, rfl⟩, ⟨_, rfl⟩, ⟨_, _, rfl, rfl⟩, _, rfl, rfl⟩

theorem witness_PlatformDevicesAreRefused :
    (∃ u, Machine.translate withDevice 0x1000000C#32 .load = .done 0x1000000C#34 u ∧
      physTarget u.config 0x1000000C#34 4 .load = some .device) ∧
    (∃ u, Machine.translate withDevice 0x10000000#32 .store = .done 0x10000000#34 u ∧
      physTarget u.config 0x10000000#34 1 .store = some .device) ∧
    (∃ u, Machine.translate withDevice 0x10000000#32 .fetch = .done 0x10000000#34 u ∧
      physTarget u.config 0x10000000#34 4 .fetch = some .device) :=
  ⟨⟨_, rfl, rfl⟩, ⟨_, rfl, rfl⟩, _, rfl, rfl⟩
theorem witness_ClintWordsAnswerWordAccesses :
    let s := put 10 0x200BFFC#32 base
    (0x200BFFC#32).toNat % 4 = 0 ∧ 0x200BFFC#32 = BitVec.ofInt 32 ((s.x 10#5).toInt + (0#12).toInt) ∧
    0x200BFFC#32 = s.x 10#5 ∧ reachesClint s 0x200BFFC#32 .load .mtimeHigh 0x200BFFC#34 s ∧
    reachesClint s 0x200BFFC#32 .store .mtimeHigh 0x200BFFC#34 s ∧
    reachesClint s 0x2000000#32 .store .msip 0x2000000#34 s ∧
    s.reservation ≠ ⟨true, (0x200BFFC#34).setWidth 32⟩ ∧
    (⟨true, 0x200BFFC#32⟩ : Reservation) = ⟨true, (0x200BFFC#34).setWidth 32⟩ :=
  ⟨by decide, by decide, by decide, ⟨rfl, by decide⟩, ⟨rfl, by decide⟩, ⟨rfl, by decide⟩, by decide, by decide⟩
theorem witness_FenceAndWaitPassOn : base.priv ≠ .U := by decide
theorem witness_FetchesSeeStoresInTime :
    fetchPathBounded { base with fetchWindow := [⟨0x80000004, 0x13#8, 4⟩, ⟨0x80000005, 0#8, 1⟩] } ∧
    (∀ b ∈ [(⟨0x80000004, 0x13#8, 4⟩ : StaleByte)], b.addr ≠ 0x80000000) := by
  simp [fetchPathBounded, base, State.resetWith, fetchAhead]
theorem witness_LoadReservedReserves :
    (atEnd.x 10#5).toNat % 4 = 0 ∧ reaches atEnd (atEnd.x 10#5) 4 .load 0x803FFFFC#34 atEnd :=
  ⟨by decide, reaches_plain (by decide) (by decide)⟩
theorem witness_StoreConditionalTestsTheReservation :
    ((atEnd.x 10#5).toNat % 4 = 0 ∧ Memory.wf atEnd.mem) ∧
    reaches { atEnd with reservation := ⟨true, 0x803FFFFC#32⟩ } 0x803FFFFC#32 4 .store 0x803FFFFC#34
      { atEnd with reservation := ⟨true, 0x803FFFFC#32⟩ } ∧
    (Machine.translate atEnd 0x803FFFFC#32 .store = .done 0x803FFFFC#34 atEnd ∧
      physAccessOk atEnd.config 0x803FFFFC#34 4 .store = true ∧ atEnd.reservation ≠ ⟨true, 0x803FFFFC#32⟩) ∧
    (⟨true, 0x803FFFF8#32⟩ : Reservation) ≠ ⟨true, 0x803FFFFC#32⟩ :=
  ⟨by decide, reaches_plain (by decide) (by decide), ⟨rfl, by decide, by decide⟩, by decide⟩
theorem witness_AtomicsExchangeTheWord :
    (atEnd.x 10#5).toNat % 4 = 0 ∧ Memory.wf atEnd.mem ∧
    reaches atEnd (atEnd.x 10#5) 4 .store 0x803FFFFC#34 atEnd ∧
    physTarget atEnd.config 0x803FFFFC#34 4 .load = some .memory :=
  ⟨by decide, by decide, reaches_plain (by decide) (by decide), by decide⟩
theorem witness_PairedStoreConditionalSucceeds :
    (atEnd.x 10#5).toNat % 4 = 0 ∧ plainRam atEnd (atEnd.x 10#5) 4 ∧ Memory.wf atEnd.mem ∧
    ∃ t, exec (.lrW 5#5 10#5 false false) atEnd = .next t ∧ t.x 10#5 = atEnd.x 10#5 ∧
      ∃ u, exec (.scW 6#5 10#5 5#5 false false) t = .next u ∧ u.x 10#5 = atEnd.x 10#5 ∧ 7#5 ≠ 0#5 :=
  ⟨by decide, by decide, by decide, _, rfl, by decide, _, rfl, by decide, by decide⟩
theorem witness_ReservationChangesOnlyAsListed :
    (∃ t, exec (.scW 6#5 10#5 5#5 false false) { atEnd with reservation := ⟨true, 0x803FFFFC#32⟩ } = .next t ∧
      t.reservation.valid = false) ∧
    (∃ t, exec .ecall { base with reservation := ⟨true, 0#32⟩ } = .next t ∧ t.reservation.valid = false) ∧
    (∃ t, exec (.sw 10#5 5#5 0#12) { atEnd with
        reservation := ⟨true, 0x803FFFFC#32⟩
        config := { base.config with ownStoreClearsReservation := true } } = .next t ∧ t.reservation.valid = false) ∧
    (∃ t, exec (.lrW 5#5 10#5 false false) atEnd = .next t ∧ t.reservation.valid = true ∧
      t.reservation.addr ≠ atEnd.reservation.addr) :=
  ⟨⟨_, rfl, by decide⟩, ⟨_, rfl, by decide⟩, ⟨_, rfl, by decide⟩, _, rfl, by decide, by decide⟩
theorem witness_TheWalkReadsTwoLevels :
    (0x80010004#34 : PAddr) =
      BitVec.ofNat 34 (paged.satp.toNat % 2 ^ 22 * 4096 + (0x7FFFFF#32).toNat / 2 ^ 22 * 4) ∧
    physAccessOk paged.config 0x40000000#34 4 .load = false ∧
    physTarget paged.config 0x80010004#34 4 .load = some .memory ∧
    entryFaults (wordAt paged.mem 0x8001100C) ∧ entryFaults (wordAt paged.mem 0x80010000) ∧
    (¬ entryFaults (wordAt paged.mem 0x80010008) ∧ entryEnds (wordAt paged.mem 0x80010008)) ∧
    (¬ entryFaults (wordAt paged.mem 0x80010004) ∧ ¬ entryEnds (wordAt paged.mem 0x80010004)) ∧
    (0x80011000#34 : PAddr) = BitVec.ofNat 34
      ((wordAt paged.mem 0x80010004).toNat / 2 ^ 10 * 4096 + (0x400FFF#32).toNat / 2 ^ 12 % 2 ^ 10 * 4) ∧
    (¬ entryFaults (wordAt paged.mem 0x80011018) ∧ ¬ entryEnds (wordAt paged.mem 0x80011018)) := by
  and_intros <;> decide
theorem witness_LeavesFormThePhysicalAddress :
    (leafAddress 0x4000000F#32 0x407FFF#32 .page).extractLsb' 32 2 ≠ 0#2 ∧
    (leafAddress 0xFFF000CF#32 0xBFFFFF#32 .megapage).extractLsb' 32 2 ≠ 0#2 := by decide
theorem witness_UncachedTranslationsAreTheWalk :
    (paged.translates = true ∧ paged.tlbCandidates 0x400000#32 .load = [] ∧ Memory.wf paged.mem) ∧
    walk paged 0x403000#32 = .pageFault ∧ walk paged 0x1000000#32 = .accessFault ∧
    (walk paged 0x405000#32 = .leaf 0x200090C3#32 0x80011014#34 .page ∧
      ¬ leafPermits paged.priv paged.mstatus .store 0x200090C3#32 .page ∧
      leafPermits paged.priv paged.mstatus .load 0x200090C3#32 .page ∧ ¬ entryNeedsUpdate .load 0x200090C3#32) ∧
    (walk paged 0x400000#32 = .leaf 0x2000800F#32 0x80011000#34 .page ∧
      leafPermits paged.priv paged.mstatus .load 0x2000800F#32 .page ∧ entryNeedsUpdate .load 0x2000800F#32 ∧
      physTarget paged.config 0x80011000#34 4 .store = some .memory) := by
  and_intros <;> decide

/-- A platform whose page table may lie in read-only memory at 0. -/
def readOnlyTables : State :=
  { hold 0 0x2000000F#32 base with
    priv := .S, satp := 0x80000000#32,
    config := { base.config with regions := [⟨0, 4096, .memory, true, true, false⟩] } }

theorem witness_UncachedTranslationsAreTheWalk_readOnly :
    readOnlyTables.translates = true ∧ readOnlyTables.tlbCandidates 0#32 .load = [] ∧ Memory.wf readOnlyTables.mem ∧
    walk readOnlyTables 0#32 = .leaf 0x2000000F#32 0#34 .megapage ∧
    leafPermits readOnlyTables.priv readOnlyTables.mstatus .load 0x2000000F#32 .megapage ∧
    entryNeedsUpdate .load 0x2000000F#32 ∧ physAccessOk readOnlyTables.config 0#34 4 .store = false := by
  and_intros <;> decide
theorem witness_TranslationsComeFromAnEntryOrTheWalk :
    base.priv = .M ∧ sv32Selected { base with priv := .S }.config base.satp = false ∧
    (paged.priv ≠ .M ∧ sv32Selected paged.config paged.satp = true) ∧
    (∃ pa u, Machine.translate paged 0xBFFFFF#32 .store = .done pa u) ∧
    (∃ u, Machine.translate paged 0x403000#32 .load = .raise .loadPageFault u) :=
  ⟨rfl, by decide, by decide, ⟨_, _, rfl⟩, _, rfl⟩
theorem witness_FenceRemovesCachedTranslations : paged.priv ≠ .U ∧
    ((0xFFFFFFFF#32).toNat / 2 ^ 12 = ((put 10 0xFFFFF000#32 paged).x 10#5).toNat / 2 ^ 12) := by decide
theorem witness_CsrInstructionsReadAndWrite :
    (csrLookup base.config 0x344#12 = .present .mip ∧ csrPermits base.priv 0x344#12 true = true) ∧
    (csrLookup base.config 0xF14#12 = .present .mhartid ∧ csrPermits base.priv 0xF14#12 false = true) ∧
    (csrLookup base.config 0x100#12 = .present .sstatus ∧ csrPermits .S 0x100#12 true = true) := by decide
theorem witness_CsrChecksRaiseOrRefuse :
    (csrPermits base.priv 0xF14#12 true = false ∧ csrPermits .S 0x300#12 false = false) ∧
    csrLookup base.config 0x7C0#12 = .absent ∧
    (csrPermits base.priv 0xC00#12 false = true ∧ csrLookup base.config 0xC00#12 = .unknown) ∧
    (csrPermits base.priv 0xB00#12 true = true ∧ csrLookup base.config 0xB00#12 = .unknown) := by decide
theorem witness_CsrAddressesNameTheirCsrs :
    (0x100, Csr.sstatus) ∈ tableCsrs ∧ (0xF14, Csr.mhartid) ∈ tableCsrs ∧ (0x106, Csr.scounteren) ∈ counterCsrs ∧
    (isHpmAddress 0xB03 ∧ isHpmAddress 0xB9F ∧ isHpmAddress 0x33F) ∧
    (isUnnamedAddress 0xC00 ∧ isUnnamedAddress 0x7B3 ∧ isUnnamedAddress 0x320) ∧
    ((tableCsrs ++ counterCsrs).all (fun p => p.1 != 0x7C0) = true ∧ ¬ isHpmAddress 0x7C0 ∧ ¬ isUnnamedAddress 0x7C0) := by
  and_intros <;> decide
theorem base_csrs : CsrsLegal base := by constructor <;> decide
theorem witness_StatusWritesKeepTheirMask : 31 < 32 ∧ CsrsLegal base ∧ 31 ∉ [1, 3, 5, 7, 8, 11, 12, 18, 19] :=
  ⟨by decide, base_csrs, by decide⟩
theorem witness_InterruptCsrsFollowTheirLines : 0 < 32 ∧ 31 < 32 ∧ CsrsLegal base := ⟨by decide, by decide, base_csrs⟩
theorem witness_CsrWritesStoreTheirLegalValue :
    base.config.satpLayout = .riscv ∧ { base.config with satpLayout := .psdText }.satpLayout = .psdText := by decide
theorem witness_CountersReadAndCount : ∃ t, step base = .next t := ⟨_, rfl⟩
theorem witness_TrapEntrySavesAndRedirects :
    (paged.priv ≠ .M ∧ { paged with mideleg := 0x222#32 }.mideleg.getLsbD 9 = true) ∧
    (paged.priv ≠ .M ∧ { paged with medeleg := 0xB3FF#32 }.medeleg.getLsbD 15 = true) ∧
    ¬ (base.priv ≠ .M ∧ base.medeleg.getLsbD 0 = true) := by decide
theorem witness_VectorsFollowTheMode : (0x80000400#32).toNat % 4 = 0 ∧ (0xFFFFFFFD#32).toNat % 4 = 1 := by decide
theorem witness_ReturnsRestoreTheSavedState :
    (base.priv = .M ∧ statusMPP 0x1880#32 ≠ 0b10#2 ∧ statusMPP base.mstatus ≠ 0b10#2) ∧
    statusMPP 0x1000#32 = 0b10#2 ∧ paged.priv ≠ .U := by decide
theorem witness_PrivilegedInstructionsAreIllegalBelow :
    paged.priv ≠ .M ∧ { base with priv := .U }.priv = .U := by decide
theorem witness_TrapThenReturnRestoresTheMode :
    ¬ (base.priv ≠ .M ∧ base.mideleg.getLsbD 11 = true) ∧ ¬ (paged.priv ≠ .M ∧ paged.medeleg.getLsbD 9 = true) := by
  decide
theorem witness_InstructionsRetireOrOnlyTrap :
    (∃ t, exec (.addi 5#5 0#5 0#12) base = .next t) ∧ ∃ t, exec .ebreak base = .next t := ⟨⟨_, rfl⟩, _, rfl⟩
theorem witness_ModeChangesOnlyByTrapReturnOrReset :
    (∃ t, exec .mret base = .next t ∧ t.priv ≠ base.priv) ∧ (∃ t, exec .ecall paged = .next t ∧ t.priv ≠ paged.priv) ∧
    (∃ t, step { pending with priv := .S, mstatus := 0#32 } = .next t ∧ t.priv ≠ .S) ∧
    (∃ t, step { paged with pc := 0x405000#32 } = .next t ∧ t.priv ≠ .S) ∧
    (∃ t, step (hold 0x80000000 0x30200073#32 base) = .next t ∧ t.priv ≠ .M) ∧
    (atBoundary { paged with inputs := [[.reset]] }).priv ≠ paged.priv ∧
    (∀ e ∈ [EnvEvent.tick 1], e ≠ .reset) :=
  ⟨⟨_, rfl, by decide⟩, ⟨_, rfl, by decide⟩, ⟨_, rfl, by decide⟩, ⟨_, rfl, by decide⟩, ⟨_, rfl, by decide⟩,
    by decide, by decide⟩
theorem witness_UserModeChangesNoPrivilegedState :
    (∃ t, exec (.addi 5#5 0#5 0#12) { base with priv := .U } = .next t) ∧
    (∃ t, exec (.csrrw 5#5 0x340#12 0#5) { base with priv := .U } = .next t) := ⟨⟨_, rfl⟩, _, rfl⟩
theorem witness_UpperRegistersNeverChange :
    ∃ t, step { base with inputs := [[.tick 1]] } = .next t ∧ ∀ e ∈ [EnvEvent.tick 1], e ≠ .reset :=
  ⟨_, rfl, by decide⟩
theorem witness_EnvironmentEventsAct :
    Memory.wf base.mem ∧ isMemoryByte base.config (0x803FFFFF + 0) = true ∧
    isMemoryByte base.config (0x803FFFFF + 1) = false ∧ [1#8, 2#8][0]? = some 1#8 ∧
    (¬ outside (0x803FFFFF + 0) (⟨true, 0x803FFFFC#32⟩ : Reservation).addr.toNat 4) ∧
    outside (0x803FFFFF + 0) (⟨true, 0x803FFFF8#32⟩ : Reservation).addr.toNat 4 ∧
    ((0x200BFFC#32).toNat = clintWordAddress base.config .mtimeHigh ∧ inRam base.config (0x200BFFC#32).toNat 4 = false) ∧
    ∀ r, (0x200BFFD#32).toNat ≠ clintWordAddress base.config r := by
  and_intros <;> first | decide | (intro r; cases r <;> decide)

end Sys2Proof.Tests
end

section
/-! PROOFS. One pass of the instruction cycle, in the order of its branches (00_scope.md R12). -/

namespace Sys2Proof.Machine

theorem afterBoundary_of_pending {s : State} {i : Interrupt} (h : s.pendingInterrupt = some i) :
    afterBoundary s = .next (takeInterrupt i s) := by
  simp only [afterBoundary, h]

theorem afterBoundary_of_quiet {s : State} (h : s.pendingInterrupt = none) :
    afterBoundary s = instructionCycle s := by
  simp only [afterBoundary, h]

theorem instructionCycle_of_fetched {s u : State} {w : Word} (h : fetch s = .done w u) :
    instructionCycle s = executeWord w u := by
  simp only [instructionCycle, h]

theorem executeWord_of_decoded {w : Word} {i : Instr} (h : decodeWord w = some i) (s : State) :
    executeWord w s = exec i s := by
  simp only [executeWord, h]

theorem executeWord_of_undecoded {w : Word} (h : decodeWord w = none) (s : State) :
    executeWord w s = .next (raiseIllegal w s) := by
  simp only [executeWord, h]

/-- Settles O7: `step` is `afterBoundary` of the state at the boundary, taken branch by branch. -/
theorem stepRunsTheDecodedInstruction : Obligations.StepRunsTheDecodedInstruction := by
  intro s
  refine ⟨fun j taken => afterBoundary_of_pending taken, fun quiet w u fetched => ?_⟩
  have runs : step s = executeWord w u :=
    (afterBoundary_of_quiet quiet).trans (instructionCycle_of_fetched fetched)
  exact ⟨fun i decoded => runs.trans (executeWord_of_decoded decoded u),
    fun illegal => runs.trans (executeWord_of_undecoded illegal u)⟩

end Sys2Proof.Machine
end

section
/-! PROOFS. What another bus master does at a boundary: to memory byte by byte, to the reservation, and to a CLINT word
(00_scope.md R8, 20_memory.md R155, 44_a_extension.md R316, 60_exceptions.md R462). -/

namespace Sys2Proof.Machine

/-! ### The reservation after a write of another master -/

theorem overlapsReserved_iff (r : Reservation) (a n : Nat) :
    overlapsReserved r a n = true ↔ a < r.addr.toNat + 4 ∧ r.addr.toNat < a + n := by
  simp [overlapsReserved]

theorem overlapsReserved_byte_iff (r : Reservation) (a : Nat) :
    overlapsReserved r a 1 = true ↔ ¬ outside a r.addr.toNat 4 := by
  rw [overlapsReserved_iff]; omega

theorem reservationAfterForeign_valid_iff (r : Reservation) (a n : Nat) :
    (reservationAfterForeign r a n).valid = true ↔ r.valid = true ∧ overlapsReserved r a n = false := by
  unfold reservationAfterForeign
  split
  · next clash => simp [clash]
  · next apart => simp [apart]

/-! ### One byte -/

@[simp] theorem foreignByte_config (s : State) (a : Nat) (v : Byte) : (foreignByte s a v).config = s.config := by
  rw [foreignByte_same]

theorem foreignByte_of_memory {s : State} {a : Nat} (h : isMemoryByte s.config a = true) (v : Byte) :
    foreignByte s a v = { s with mem := s.mem.write a v
                                 fetchWindow := staleBytes s.mem a 1 ++ s.fetchWindow
                                 reservation := reservationAfterForeign s.reservation a 1 } :=
  if_pos h

theorem foreignByte_elsewhere {s : State} {a : Nat} (h : isMemoryByte s.config a = false) (v : Byte) :
    foreignByte s a v = s :=
  if_neg (by simp [h])

theorem foreignByte_wf {s : State} (hm : Memory.wf s.mem) (a : Nat) (v : Byte) :
    Memory.wf (foreignByte s a v).mem := by
  cases h : isMemoryByte s.config a with
  | true => rw [foreignByte_of_memory h]; exact Memory.write_wf _ _ _ hm
  | false => rwa [foreignByte_elsewhere h]

/-- The byte a foreign write covers takes the new value where it is memory; every other byte reads as before. -/
theorem foreignByte_read {s : State} (hm : Memory.wf s.mem) (a b : Nat) (v : Byte) :
    (foreignByte s a v).mem.read b =
      if b = a ∧ isMemoryByte s.config a = true then v else s.mem.read b := by
  cases h : isMemoryByte s.config a with
  | true => simp [foreignByte_of_memory h, Memory.read_write _ _ _ _ hm.1]
  | false => simp [foreignByte_elsewhere h]

@[simp] theorem foreignByte_reservation_addr (s : State) (a : Nat) (v : Byte) :
    (foreignByte s a v).reservation.addr = s.reservation.addr := by
  cases h : isMemoryByte s.config a with
  | true => simp [foreignByte_of_memory h]
  | false => rw [foreignByte_elsewhere h]

theorem foreignByte_reservation_apart {s : State} {a : Nat} (v : Byte)
    (h : isMemoryByte s.config a = true → outside a s.reservation.addr.toNat 4) :
    (foreignByte s a v).reservation = s.reservation := by
  cases mem : isMemoryByte s.config a with
  | true =>
    have apart : ¬ overlapsReserved s.reservation a 1 = true := by
      rw [overlapsReserved_byte_iff]; exact not_not_intro (h mem)
    rw [foreignByte_of_memory mem]; exact if_neg apart
  | false => rw [foreignByte_elsewhere mem]

theorem foreignByte_reservation_cleared {s : State} {a : Nat} (v : Byte) (mem : isMemoryByte s.config a = true)
    (h : ¬ outside a s.reservation.addr.toNat 4) : (foreignByte s a v).reservation.valid = false := by
  have clash := (overlapsReserved_byte_iff s.reservation a).2 h
  simp [foreignByte_of_memory mem, reservationAfterForeign, clash]

theorem foreignByte_reservation_invalid {s : State} (h : s.reservation.valid = false) (a : Nat) (v : Byte) :
    (foreignByte s a v).reservation.valid = false := by
  cases mem : isMemoryByte s.config a with
  | true =>
    rw [foreignByte_of_memory mem, Bool.eq_false_iff, ne_eq, reservationAfterForeign_valid_iff]
    simp [h]
  | false => rwa [foreignByte_elsewhere mem]

/-! ### Consecutive bytes, by induction on the list written -/

theorem foreignWrite_read_elsewhere (s : State) (a : Nat) (vs : List Byte) (hm : Memory.wf s.mem) (b : Nat)
    (h : outside b a vs.length ∨ isMemoryByte s.config b = false) :
    (foreignWrite s a vs).mem.read b = s.mem.read b := by
  induction vs generalizing s a with
  | nil => rfl
  | cons v vs ih =>
    rw [List.length_cons] at h
    have rest : outside b (a + 1) vs.length ∨ isMemoryByte (foreignByte s a v).config b = false := by
      rw [foreignByte_config]
      exact h.imp_left fun out => by omega
    have untouched : ¬ (b = a ∧ isMemoryByte s.config a = true) := by
      rintro ⟨rfl, mem⟩
      obtain out | elsewhere := h
      · omega
      · simp [elsewhere] at mem
    rw [foreignWrite, ih _ _ (foreignByte_wf hm a v) rest, foreignByte_read hm, if_neg untouched]

theorem foreignWrite_read_written (s : State) (a : Nat) (vs : List Byte) (hm : Memory.wf s.mem) (k : Nat) (v : Byte)
    (hv : vs[k]? = some v) (mem : isMemoryByte s.config (a + k) = true) :
    (foreignWrite s a vs).mem.read (a + k) = v := by
  induction vs generalizing s a k with
  | nil => simp at hv
  | cons u vs ih =>
    have hm' := foreignByte_wf hm a u
    cases k with
    | zero =>
      obtain rfl : u = v := by simpa using hv
      rw [foreignWrite, foreignWrite_read_elsewhere _ _ _ hm' _ (.inl (.inl (by omega))), foreignByte_read hm,
        if_pos ⟨rfl, mem⟩]
    | succ k =>
      rw [← Nat.add_assoc, Nat.add_right_comm] at mem ⊢
      exact ih _ _ hm' k (by simpa using hv) (by rwa [foreignByte_config])

theorem foreignWrite_reservation_apart (s : State) (a : Nat) (vs : List Byte)
    (h : ∀ k, k < vs.length → isMemoryByte s.config (a + k) = true → outside (a + k) s.reservation.addr.toNat 4) :
    (foreignWrite s a vs).reservation = s.reservation := by
  induction vs generalizing s a with
  | nil => rfl
  | cons v vs ih =>
    have first : (foreignByte s a v).reservation = s.reservation :=
      foreignByte_reservation_apart v (h 0 (Nat.succ_pos _))
    rw [foreignWrite, ih, first]
    intro k hk
    rw [foreignByte_config, first, Nat.add_right_comm]
    exact h (k + 1) (Nat.succ_lt_succ hk)

theorem foreignWrite_reservation_invalid (s : State) (a : Nat) (vs : List Byte) (h : s.reservation.valid = false) :
    (foreignWrite s a vs).reservation.valid = false := by
  induction vs generalizing s a with
  | nil => exact h
  | cons v vs ih => exact ih _ _ (foreignByte_reservation_invalid h a v)

theorem foreignWrite_reservation_cleared (s : State) (a : Nat) (vs : List Byte) (k : Nat) (hk : k < vs.length)
    (mem : isMemoryByte s.config (a + k) = true) (h : ¬ outside (a + k) s.reservation.addr.toNat 4) :
    (foreignWrite s a vs).reservation.valid = false := by
  induction vs generalizing s a k with
  | nil => exact absurd hk (Nat.not_lt_zero k)
  | cons v vs ih =>
    cases k with
    | zero => exact foreignWrite_reservation_invalid _ (a + 1) vs (foreignByte_reservation_cleared v mem h)
    | succ k =>
      rw [← Nat.add_assoc, Nat.add_right_comm] at mem h
      exact ih _ _ k (Nat.lt_of_succ_lt_succ hk) (by rwa [foreignByte_config]) (by rwa [foreignByte_reservation_addr])

/-! ### A word store to the CLINT -/

theorem toNat_word_setWidth_paddr (addr : Word) : (addr.setWidth 34).toNat = addr.toNat :=
  BitVec.toNat_setWidth_of_le (by decide)

/-- Outside RAM, a word store at the address of a CLINT word is answered by it. -/
theorem physTarget_clint {c : Config} {addr : Word} {r : ClintReg} (ha : addr.toNat = clintWordAddress c r)
    (hr : inRam c addr.toNat 4 = false) : physTarget c (addr.setWidth 34) 4 .store = some (.clint r) := by
  have hlt : ¬ 2 ^ 32 ≤ addr.toNat := Nat.not_le.2 addr.isLt
  simp only [physTarget, toNat_word_setWidth_paddr, hlt, hr, clintRegAt_address c _ r ha, reduceCtorEq,
    Bool.false_eq_true, if_false]

/-- A word store anywhere else is not answered by the CLINT. -/
theorem physTarget_not_clint {c : Config} {addr : Word} (h : ∀ r, addr.toNat ≠ clintWordAddress c r)
    (r : ClintReg) : physTarget c (addr.setWidth 34) 4 .store ≠ some (.clint r) := by
  intro hit
  simp only [physTarget, toNat_word_setWidth_paddr, clintRegAt_elsewhere c _ 4 fun r _ => h r] at hit
  split at hit
  · cases hit
  split at hit
  · cases hit
  split at hit
  · next region _ => cases hk : region.kind <;> simp [hk, regionTarget] at hit
  · cases hit

theorem foreignClintStore_at_clint {s : State} {addr : Word} {r : ClintReg}
    (ha : addr.toNat = clintWordAddress s.config r) (hr : inRam s.config addr.toNat 4 = false) (v : Word) :
    foreignClintStore s addr v =
      { clintStored s r v with reservation := reservationAfterForeign s.reservation addr.toNat 4 } := by
  simp only [foreignClintStore, physTarget_clint ha hr, clintWrite_eq]

theorem foreignClintStore_elsewhere {s : State} {addr : Word} (h : ∀ r, addr.toNat ≠ clintWordAddress s.config r)
    (v : Word) : foreignClintStore s addr v = s := by
  unfold foreignClintStore
  split
  · next r hit => exact absurd hit (physTarget_not_clint h r)
  · rfl

/-- Settles O60, event by event: the lines and `mtime` by definition, the writes of another master by the lemmas
above. -/
theorem environmentEventsAct : Obligations.EnvironmentEventsAct := by
  intro s
  refine ⟨fun l => ⟨rfl, rfl⟩, fun l => rfl, ?clintWord, fun addr v away => foreignClintStore_elsewhere away v,
    ?tick, ?bytes⟩
  case clintWord =>
    rintro addr v r t ha hr rfl
    rw [applyEvent, foreignClintStore_at_clint ha hr]
    refine ⟨rfl, reservationAfterForeign_addr _ _ _, ?_⟩
    rw [reservationAfterForeign_valid_iff, Bool.eq_false_iff, ne_eq, overlapsReserved_iff]
    exact and_congr_right fun _ => by omega
  case tick =>
    intro n
    rw [applyEvent, BitVec.ofNat_add, BitVec.ofNat_toNat, BitVec.setWidth_eq]
  case bytes =>
    rintro addr bytes t hm rfl
    refine ⟨foreignWrite_read_written s _ bytes hm, foreignWrite_read_elsewhere s _ bytes hm, ?_,
      foreignWrite_reservation_apart s _ bytes, foreignWrite_same s _ bytes⟩
    rintro ⟨k, hk, mem, clash⟩
    exact foreignWrite_reservation_cleared s _ bytes k hk mem clash

end Sys2Proof.Machine
end

section
/-! PROOFS. The masks of the CSRs bit by bit, and with them what the CSRs read and what a write to one stores
(10_state.md R34 to R57). -/

namespace Sys2Proof.Machine

/-! ### The bits of the masks -/

theorem mstatusMask_bits : ∀ j < 32, mstatusMask.getLsbD j = decide (j ∈ [1, 3, 5, 7, 8, 11, 12, 18, 19]) := by decide
theorem mstatusMask_without_mpp_bits :
    ∀ j < 32, (mstatusMask &&& ~~~0x00001800#32).getLsbD j = decide (j ∈ [1, 3, 5, 7, 8, 18, 19]) := by decide
theorem sstatusMask_bits : ∀ j < 32, sstatusMask.getLsbD j = decide (j ∈ [1, 5, 8, 18, 19]) := by decide
theorem mieMask_bits : ∀ j < 32, mieMask.getLsbD j = decide (j ∈ [1, 3, 5, 7, 9, 11]) := by decide
theorem supervisorMask_bits : ∀ j < 32, supervisorMask.getLsbD j = decide (j ∈ [1, 5, 9]) := by decide
theorem ssipMask_bits : ∀ j < 32, (0x00000002#32).getLsbD j = decide (j = 1) := by decide
theorem medelegMask_bits : ∀ j < 32, medelegMask.getLsbD j = decide (j < 10 ∨ j ∈ [12, 13, 15]) := by decide
theorem epcMask_bits : ∀ j < 32, epcMask.getLsbD j = decide (2 ≤ j) := by decide
theorem tvecBaseMask_bits : ∀ j < 32, (0xFFFFFFFC#32).getLsbD j = decide (2 ≤ j) := by decide
theorem satpMask_bits : ∀ j < 32, satpMask.getLsbD j = decide (j ≠ 30) := by decide

/-- A word whose bits lie inside a mask has only bits of the mask. -/
theorem maskedBy_iff (mask w : Word) : maskedBy mask w ↔ ∀ j, w.getLsbD j = true → mask.getLsbD j = true := by
  constructor
  · intro h j hw
    have bit := congrArg (BitVec.getLsbD · j) h
    have hj := BitVec.lt_of_getLsbD hw
    simpa [hw, hj] using bit
  · intro h
    apply BitVec.eq_of_getLsbD_eq
    intro j hj
    cases hw : w.getLsbD j with
    | false => simp [hw]
    | true => simp [h j hw]

theorem maskedBy.getLsbD_eq_false {mask w : Word} (h : maskedBy mask w) {j : Nat} (hj : mask.getLsbD j = false) :
    w.getLsbD j = false :=
  Bool.eq_false_iff.2 fun hw => by simp [(maskedBy_iff mask w).1 h j hw] at hj

theorem maskedBy_and (mask v : Word) : maskedBy mask (v &&& mask) :=
  (maskedBy_iff _ _).2 fun j hj => by
    rw [BitVec.getLsbD_and, Bool.and_eq_true] at hj
    exact hj.2

/-- A masked write inside a mask keeps a word inside it. -/
theorem maskedBy_writeMasked {mask m old : Word} (hold : maskedBy mask old) (hm : maskedBy mask m) (v : Word) :
    maskedBy mask (writeMasked m old v) :=
  (maskedBy_iff _ _).2 fun j hj => by
    rw [writeMasked_getLsbD] at hj
    split at hj
    · next inside => exact (maskedBy_iff _ _).1 hm j inside
    · exact (maskedBy_iff _ _).1 hold j hj

theorem and_decide_eq_ite (b : Bool) (P : Prop) [Decidable P] : (b && decide P) = if P then b else false := by
  by_cases h : P <;> simp [h]

/-! ### `mstatus` and `sstatus` -/

theorem statusMPP_eq_reserved_iff (w : Word) :
    statusMPP w = 0b10#2 ↔ w.getLsbD 12 = true ∧ w.getLsbD 11 = false := by
  have bit0 : (statusMPP w).getLsbD 0 = w.getLsbD 11 := by simp [statusMPP]
  have bit1 : (statusMPP w).getLsbD 1 = w.getLsbD 12 := by simp [statusMPP]
  rw [← bit0, ← bit1]
  generalize statusMPP w = b
  revert b
  decide

/-- A write to `mstatus`, bit by bit (10_state.md R34, R36). -/
theorem legalMstatus_getLsbD (old v : Word) (j : Nat) (hj : j < 32) :
    (legalMstatus old v).getLsbD j =
      if j ∈ [1, 3, 5, 7, 8, 18, 19] then v.getLsbD j
      else if j ∈ [11, 12] ∧ ¬ (v.getLsbD 12 = true ∧ v.getLsbD 11 = false) then v.getLsbD j
      else old.getLsbD j := by
  unfold legalMstatus
  simp only [← statusMPP_eq_reserved_iff]
  split
  · next reserved =>
    rw [writeMasked_getLsbD, mstatusMask_without_mpp_bits j hj]
    simp [reserved]
  · next legal =>
    rw [writeMasked_getLsbD, mstatusMask_bits j hj]
    by_cases other : j ∈ [1, 3, 5, 7, 8, 18, 19]
    · have inside : j ∈ [1, 3, 5, 7, 8, 11, 12, 18, 19] := by revert other; simp; omega
      rw [if_pos other, decide_eq_true inside, if_pos rfl]
    · have same : j ∈ [1, 3, 5, 7, 8, 11, 12, 18, 19] ↔ j ∈ [11, 12] := by revert other; simp; omega
      simp only [other, if_false, legal, not_false_eq_true, and_true, decide_eq_true_eq, same]

/-- Settles O44: each write is a masked write, and the masks are known bit by bit. -/
theorem statusWritesKeepTheirMask : Obligations.StatusWritesKeepTheirMask := by
  intro s v j hj
  refine ⟨legalMstatus_getLsbD s.mstatus v j hj, ?sstatus, rfl, ?read, ?outside⟩
  case sstatus => simp only [State.writeCsr, writeMasked_getLsbD, sstatusMask_bits j hj, decide_eq_true_eq]
  case read => rw [State.readCsr, BitVec.getLsbD_and, sstatusMask_bits j hj, and_decide_eq_ite]
  case outside =>
    intro legal out
    exact legal.mstatus.getLsbD_eq_false (by rw [mstatusMask_bits j hj, decide_eq_false out])

/-! ### `mip`, `mie`, `sip` and `sie` -/

/-- One bit, shifted to its place. -/
theorem boolWord_shiftLeft_getLsbD (b : Bool) (i j : Nat) (hj : j < 32) :
    (boolWord b <<< i).getLsbD j = (decide (j = i) && b) := by
  cases b
  · simp [boolWord]
  · by_cases below : j < i
    · simp [boolWord, below]
      omega
    · have : j - i = 0 ↔ j = i := by omega
      simp [boolWord, below, hj, this]

theorem State.mipStored_getLsbD (s : State) (j : Nat) (hj : j < 32) :
    s.mipStored.getLsbD j =
      (decide (j = 11) && s.extIrqM || decide (j = 7) && s.timerPending || decide (j = 3) && s.msip ||
        s.mipSoft.getLsbD j) := by
  simp only [State.mipStored, State.lineBits, BitVec.getLsbD_or, boolWord_shiftLeft_getLsbD _ _ j hj]

theorem State.mip_getLsbD (s : State) (j : Nat) (hj : j < 32) :
    s.mip.getLsbD j = (s.mipStored.getLsbD j || decide (j = 9) && s.seipLine) := by
  rw [State.mip, BitVec.getLsbD_or, boolWord_shiftLeft_getLsbD _ _ j hj]

/-- What `mip` reads, bit by bit: the lines, and the software bits in their own places (10_state.md R38). -/
theorem State.mip_read_bits {s : State} (legal : CsrsLegal s) (j : Nat) (hj : j < 32) :
    s.mip.getLsbD j =
      if j = 11 then s.extIrqM
      else if j = 7 then decide (s.mtimecmp.toNat ≤ s.mtime.toNat)
      else if j = 3 then s.msip
      else if j = 9 then s.mipSoft.getLsbD 9 || (s.config.seipExternalLine && s.extIrqS)
      else if j ∈ [1, 5] then s.mipSoft.getLsbD j else false := by
  have clear : j ∉ [1, 5, 9] → s.mipSoft.getLsbD j = false := fun out =>
    legal.mipSoft.getLsbD_eq_false (by rw [supervisorMask_bits j hj, decide_eq_false out])
  rw [State.mip_getLsbD s j hj, State.mipStored_getLsbD s j hj, State.seipLine, State.timerPending]
  by_cases h9 : j = 9
  · subst h9; simp
  · by_cases soft : j ∈ [1, 5]
    · obtain rfl | rfl : j = 1 ∨ j = 5 := by simpa using soft
      all_goals simp
    · rw [clear (by revert soft; simp; omega)]
      split_ifs with h11 h7 h3
      · simp [h11]
      · simp [h7]
      · simp [h3]
      · simp [h3, h7, h9, h11]

/-- What CSRRS and CSRRC combine with is `mip` without the supervisor line (10_state.md R38). -/
theorem State.mipStored_bits {s : State} (j : Nat) (hj : j < 32) :
    s.mipStored.getLsbD j = if j = 9 then s.mipSoft.getLsbD 9 else s.mip.getLsbD j := by
  split
  · next h9 => rw [State.mipStored_getLsbD s j hj, h9]; simp
  · next h9 => simp [State.mip_getLsbD s j hj, h9]

/-- Settles O45: the reads are `mip_read_bits` and what the masks keep of it, the writes are masked writes. -/
theorem interruptCsrsFollowTheirLines : Obligations.InterruptCsrsFollowTheirLines := by
  intro s v j hj legal
  refine ⟨State.mip_read_bits legal j hj, State.mipStored_bits j hj, ?mip, ?mie, rfl, ?readSie, ?writeSie, ?readSip,
    ?writeSip⟩
  case mip => rw [State.writeCsr, BitVec.getLsbD_and, supervisorMask_bits j hj, and_decide_eq_ite]
  case mie => rw [State.writeCsr, BitVec.getLsbD_and, mieMask_bits j hj, and_decide_eq_ite]
  case readSie =>
    rw [State.readCsr, BitVec.getLsbD_and, BitVec.getLsbD_and, supervisorMask_bits j hj]
    ac_rfl
  case writeSie =>
    rw [State.writeCsr, writeMasked_getLsbD, BitVec.getLsbD_and, supervisorMask_bits j hj]
    simp only [Bool.and_eq_true, decide_eq_true_eq, and_comm]
  case readSip =>
    rw [State.readCsr, BitVec.getLsbD_and, BitVec.getLsbD_and, supervisorMask_bits j hj]
    simp only [State.readCsr]
    ac_rfl
  case writeSip =>
    rw [State.writeCsr, writeMasked_getLsbD, BitVec.getLsbD_and, ssipMask_bits j hj]
    by_cases h1 : j = 1
    · subst h1; simp
    · simp [h1]

/-! ### The trap CSRs and `satp` -/

/-- A write to `mtvec` or `stvec`, bit by bit: a reserved MODE keeps the old one (10_state.md R40, R42). -/
theorem legalTvec_getLsbD (old v : Word) (j : Nat) (hj : j < 32) :
    (legalTvec old v).getLsbD j = if j < 2 ∧ v.getLsbD 1 = true then old.getLsbD j else v.getLsbD j := by
  unfold legalTvec
  split
  · next reserved =>
    rw [writeMasked_getLsbD, tvecBaseMask_bits j hj]
    by_cases mode : j < 2
    · simp [mode, reserved, Nat.not_le.2 mode]
    · simp [mode, Nat.not_lt.1 mode]
  · next standard => rw [if_neg fun h => standard h.2]

theorem legalSatp_riscv {c : Config} (h : c.satpLayout = .riscv) (old v : Word) : legalSatp c old v = v &&& satpMask := by
  simp only [legalSatp, h]

theorem legalSatp_psdText {c : Config} (h : c.satpLayout = .psdText) (old v : Word) :
    legalSatp c old v = if v.getLsbD 31 = true then old else v := by
  simp only [legalSatp, h]

theorem getLsbD_31_iff (v : Word) : v.getLsbD 31 = true ↔ 2 ^ 31 ≤ v.toNat := by
  rw [← BitVec.msb_eq_getLsbD_last, BitVec.msb_eq_decide, decide_eq_true_eq]

/-- A write to a CSR changes the field that holds it alone. -/
theorem State.writeCsr_onlyCsrChanges (s : State) (c : Csr) (v : Word) : OnlyCsrChanges c s (s.writeCsr c v) := by
  cases c <;> rfl

/-- Settles O46: each stored value is the written one under its mask, each read is the field itself. -/
theorem csrWritesStoreTheirLegalValue : Obligations.CsrWritesStoreTheirLegalValue := by
  intro s v
  refine ⟨fun j hj => ?bits, fun psd => ?satp, rfl, rfl, rfl, rfl, rfl, rfl, ?fixed, rfl, rfl, rfl, rfl, rfl, rfl, rfl,
    rfl, rfl, rfl, rfl, rfl, rfl, fun c => s.writeCsr_onlyCsrChanges c v⟩
  case bits =>
    have masked : ∀ (mask : Word) (b : Bool), mask.getLsbD j = b → (v &&& mask).getLsbD j = (b && v.getLsbD j) := by
      rintro mask _ rfl
      rw [BitVec.getLsbD_and, Bool.and_comm]
    refine ⟨legalTvec_getLsbD _ v j hj, legalTvec_getLsbD _ v j hj, masked _ _ (epcMask_bits j hj),
      masked _ _ (epcMask_bits j hj), masked _ _ (medelegMask_bits j hj), masked _ _ (supervisorMask_bits j hj),
      fun riscv => ?_⟩
    rw [State.writeCsr, legalSatp_riscv riscv, masked _ _ (satpMask_bits j hj)]
  case satp => simp only [State.writeCsr, legalSatp_psdText psd, getLsbD_31_iff]
  case fixed =>
    intro c hc
    simp only [List.mem_cons, List.not_mem_nil, or_false] at hc
    obtain rfl | rfl | rfl | rfl | rfl := hc <;> exact ⟨rfl, rfl⟩

end Sys2Proof.Machine
end

section
/-! PROOFS. Which CSR an address names, and the checks of an access to one (10_state.md R32, R33, R62, R63). -/

namespace Sys2Proof.Machine

/-! ### The address tables -/

/-- In a table with no address twice, the CSR listed for an address is the one beside it. -/
theorem listedCsr_eq_some_iff {l : List (CsrAddr × Csr)} (distinct : (l.map (·.1)).Nodup) (a : CsrAddr) (r : Csr) :
    listedCsr l a = some r ↔ (a, r) ∈ l := by
  induction l with
  | nil => simp [listedCsr]
  | cons p l ih =>
    obtain ⟨b, q⟩ := p
    obtain ⟨fresh, distinct⟩ := List.nodup_cons.1 distinct
    by_cases hb : b = a
    · subst hb
      have absent : (b, r) ∉ l := fun h => fresh (List.mem_map_of_mem (f := (·.1)) h)
      simp [listedCsr, absent, eq_comm]
    · have step : listedCsr ((b, q) :: l) a = listedCsr l a := by simp [listedCsr, hb]
      rw [step, ih distinct]
      simp [Ne.symm hb]

theorem listedCsr_eq_none_iff (l : List (CsrAddr × Csr)) (a : CsrAddr) :
    listedCsr l a = none ↔ ∀ r, (a, r) ∉ l := by
  simp only [listedCsr, Option.map_eq_none_iff, List.find?_eq_none, beq_iff_eq, Prod.forall]
  exact ⟨fun h r hr => h a r hr rfl, fun h b r hr e => h r (e ▸ hr)⟩

/-- A table with its addresses as numbers. -/
def numbered (l : List (CsrAddr × Csr)) : List (Nat × Csr) := l.map fun p => (p.1.toNat, p.2)

theorem mem_numbered (l : List (CsrAddr × Csr)) (a : CsrAddr) (r : Csr) : (a.toNat, r) ∈ numbered l ↔ (a, r) ∈ l := by
  simp only [numbered, List.mem_map, Prod.mk.injEq]
  constructor
  · rintro ⟨⟨b, q⟩, hp, ha, rfl⟩
    rwa [← BitVec.eq_of_toNat_eq ha]
  · exact fun h => ⟨_, h, rfl, rfl⟩

theorem tableCsrs_eq : tableCsrs = numbered csrAddresses := by decide
theorem counterCsrs_eq : counterCsrs = numbered counterAddresses := by decide
theorem addresses_distinct : ((csrAddresses ++ counterAddresses).map (·.1)).Nodup := by decide

theorem csrAddresses_distinct : (csrAddresses.map (·.1)).Nodup :=
  addresses_distinct.sublist ((List.sublist_append_left _ _).map _)

theorem counterAddresses_distinct : (counterAddresses.map (·.1)).Nodup :=
  addresses_distinct.sublist ((List.sublist_append_right _ _).map _)

theorem listed_in_table_iff (a : CsrAddr) (r : Csr) :
    listedCsr csrAddresses a = some r ↔ (a.toNat, r) ∈ tableCsrs := by
  rw [listedCsr_eq_some_iff csrAddresses_distinct, tableCsrs_eq, mem_numbered]

theorem listed_in_counters_iff (a : CsrAddr) (r : Csr) :
    listedCsr counterAddresses a = some r ↔ (a.toNat, r) ∈ counterCsrs := by
  rw [listedCsr_eq_some_iff counterAddresses_distinct, counterCsrs_eq, mem_numbered]

/-! ### The address ranges -/

theorem addrIn_iff (a : CsrAddr) (lo hi : Nat) : addrIn a lo hi = true ↔ lo ≤ a.toNat ∧ a.toNat ≤ hi := by
  simp [addrIn]

theorem isHpmAddr_iff (a : CsrAddr) : isHpmAddr a = true ↔ isHpmAddress a.toNat := by
  simp only [isHpmAddr, Bool.or_eq_true, addrIn_iff, or_assoc]

theorem isOtherUnnamedAddr_iff (a : CsrAddr) : isOtherUnnamedAddr a = true ↔ isUnnamedAddress a.toNat := by
  simp only [isOtherUnnamedAddr, Bool.or_eq_true, addrIn_iff, beq_iff_eq, BitVec.toNat_eq, BitVec.toNat_ofNat,
    isUnnamedAddress, List.mem_cons, List.not_mem_nil, or_false]
  omega

/-- The classes of addresses do not overlap. -/
theorem listed_not_in_ranges :
    ∀ p ∈ tableCsrs ++ counterCsrs, ¬ isHpmAddress p.1 ∧ ¬ isUnnamedAddress p.1 := by decide

theorem counters_not_in_table : ∀ p ∈ counterCsrs, ∀ q ∈ tableCsrs, p.1 ≠ q.1 := by decide

theorem hpm_not_unnamed {a : Nat} (h : isHpmAddress a) : ¬ isUnnamedAddress a := by
  simp only [isUnnamedAddress, List.mem_cons, List.not_mem_nil, or_false]
  omega

/-! ### What an address names, class by class -/

section
variable (c : Config) {a : CsrAddr}

theorem csrLookup_of_table {r : Csr} (h : (a.toNat, r) ∈ tableCsrs) : csrLookup c a = .present r := by
  simp only [csrLookup, (listed_in_table_iff a r).2 h]

theorem csrLookup_of_counter {r : Csr} (h : (a.toNat, r) ∈ counterCsrs) :
    csrLookup c a = if c.hasCounterCsrs = true then .present r else .unknown := by
  have notTable : listedCsr csrAddresses a = none := by
    refine Option.eq_none_iff_forall_ne_some.2 fun q hq => ?_
    exact counters_not_in_table _ h _ ((listed_in_table_iff a q).1 hq) rfl
  simp only [csrLookup, notTable, (listed_in_counters_iff a r).2 h]

/-- An address of neither table is looked up by its range. -/
theorem csrLookup_of_unlisted (h : ∀ r, (a.toNat, r) ∉ tableCsrs ++ counterCsrs) :
    csrLookup c a =
      if isHpmAddress a.toNat then (if c.hasCounterCsrs = true then .present .hpmZero else .unknown)
      else if isUnnamedAddress a.toNat then (if c.hasCounterCsrs = true then .absent else .unknown)
      else .absent := by
  have notTable : listedCsr csrAddresses a = none :=
    Option.eq_none_iff_forall_ne_some.2 fun q hq =>
      h q (List.mem_append_left _ ((listed_in_table_iff a q).1 hq))
  have notCounter : listedCsr counterAddresses a = none :=
    Option.eq_none_iff_forall_ne_some.2 fun q hq =>
      h q (List.mem_append_right _ ((listed_in_counters_iff a q).1 hq))
  simp only [csrLookup, notTable, notCounter, isHpmAddr_iff, isOtherUnnamedAddr_iff]

theorem csrLookup_of_hpm (h : isHpmAddress a.toNat) :
    csrLookup c a = if c.hasCounterCsrs = true then .present .hpmZero else .unknown := by
  rw [csrLookup_of_unlisted c fun r hr => (listed_not_in_ranges _ hr).1 h, if_pos h]

theorem csrLookup_of_unnamed (h : isUnnamedAddress a.toNat) :
    csrLookup c a = if c.hasCounterCsrs = true then .absent else .unknown := by
  rw [csrLookup_of_unlisted c fun r hr => (listed_not_in_ranges _ hr).2 h,
    if_neg fun hpm => hpm_not_unnamed hpm h, if_pos h]

/-- An address that names a CSR is listed, or is one of the hardware counters. -/
theorem csrLookup_present {r : Csr} (h : csrLookup c a = .present r) :
    (∃ q, (a.toNat, q) ∈ tableCsrs ++ counterCsrs) ∨ isHpmAddress a.toNat := by
  by_contra away
  obtain ⟨unlisted, notHpm⟩ := not_or.1 away
  rw [csrLookup_of_unlisted c (not_exists.1 unlisted), if_neg notHpm] at h
  split_ifs at h

end

/-! ### The privilege and read-only checks -/

/-- The checks of R33 as numbers of the address. -/
theorem csrPermits_iff (p : Priv) (a : CsrAddr) (willWrite : Bool) :
    csrPermits p a willWrite = true ↔
      a.toNat / 256 % 4 ≤ p.bits.toNat ∧ ¬ (willWrite = true ∧ a.toNat / 1024 = 3) := by
  have level : (a.extractLsb' 8 2).toNat = a.toNat / 256 % 4 := by simp [Nat.shiftRight_eq_div_pow]
  have readOnly : a.extractLsb' 10 2 = 0b11#2 ↔ a.toNat / 1024 = 3 := by
    rw [BitVec.toNat_eq]
    have := a.isLt
    simp [Nat.shiftRight_eq_div_pow]
    omega
  cases willWrite <;> simp [csrPermits, level, readOnly]

/-- Every listed address asks for a mode above U (10_state.md R32). -/
theorem listed_above_user : ∀ p ∈ tableCsrs ++ counterCsrs, p.1 / 256 % 4 ≠ 0 := by decide

theorem csrPermits_user_of_present {c : Config} {a : CsrAddr} {r : Csr} (h : csrLookup c a = .present r) :
    csrPermits .U a false = false := by
  have above : a.toNat / 256 % 4 ≠ 0 := by
    obtain ⟨q, listed⟩ | hpm := csrLookup_present c h
    · exact listed_above_user _ listed
    · omega
  rw [Bool.eq_false_iff, ne_eq, csrPermits_iff]
  rintro ⟨level, -⟩
  exact above (Nat.le_zero.1 level)

/-- Settles O43: each class of addresses is looked up by its own lemma. -/
theorem csrAddressesNameTheirCsrs : Obligations.CsrAddressesNameTheirCsrs := by
  intro c a
  refine ⟨fun r => csrLookup_of_table c, fun r => csrLookup_of_counter c, csrLookup_of_hpm c, csrLookup_of_unnamed c,
    fun unlisted notHpm notUnnamed => ?_, fun r => csrPermits_user_of_present⟩
  rw [csrLookup_of_unlisted c unlisted, if_neg notHpm, if_neg notUnnamed]

/-! ### How a CSR instruction ends -/

section
variable {s : State} {a : CsrAddr} {willWrite : Bool} (inst : Word) (rd : Reg) (f : Word → Word)

theorem csrInstruction_of_forbidden (h : csrPermits s.priv a willWrite = false) :
    csrInstruction inst rd a willWrite f s = .next (raiseIllegal inst s) := by
  simp only [csrInstruction, h, Bool.not_false, if_true]

theorem csrInstruction_of_absent (h : csrLookup s.config a = .absent) :
    csrInstruction inst rd a willWrite f s = .next (raiseIllegal inst s) := by
  simp only [csrInstruction, h, ite_self]

theorem csrInstruction_of_unknown (permits : csrPermits s.priv a willWrite = true)
    (h : csrLookup s.config a = .unknown) : csrInstruction inst rd a willWrite f s = .refused (.unknownCsr a) := by
  simp only [csrInstruction, permits, h, Bool.not_true, Bool.false_eq_true, if_false]

end

/-- The six CSR instructions, each with whether it writes (45_zicsr.md R341), are `csrInstruction` with their own word
and their own new value. -/
theorem exec_csr (s : State) (rd rs1 : Reg) (uimm : BitVec 5) (a : CsrAddr) (p : Bool × Instr)
    (h : p ∈ [(true, Instr.csrrw rd a rs1), (rs1 != 0#5, .csrrs rd a rs1), (rs1 != 0#5, .csrrc rd a rs1),
      (true, .csrrwi rd a uimm), (uimm != 0#5, .csrrsi rd a uimm), (uimm != 0#5, .csrrci rd a uimm)]) :
    ∃ f, exec p.2 s = csrInstruction (encode p.2) rd a p.1 f s := by
  simp only [List.mem_cons, List.not_mem_nil, or_false] at h
  obtain rfl | rfl | rfl | rfl | rfl | rfl := h <;> exact ⟨_, rfl⟩

/-- Settles O42: the checks are `csrPermits_iff`, and the ends of the six instructions those of `csrInstruction`. -/
theorem csrChecksRaiseOrRefuse : Obligations.CsrChecksRaiseOrRefuse := by
  intro s rd rs1 uimm a p hp
  obtain ⟨f, runs⟩ := exec_csr s rd rs1 uimm a p hp
  refine ⟨?checks, fun illegal => ?raises, fun permits unknown => ?refuses⟩
  case checks =>
    rw [csrPermits_iff]
    cases s.priv <;> rfl
  case raises =>
    rw [Raises, runs]
    obtain forbidden | absent := illegal
    · exact csrInstruction_of_forbidden _ rd f forbidden
    · exact csrInstruction_of_absent _ rd f absent
  case refuses => rw [runs, csrInstruction_of_unknown _ rd f permits unknown]

end Sys2Proof.Machine
end

section
/-! PROOFS. Everything an instruction, and everything a step, can end in: said once, so that what every step keeps is
proved of a few ends instead of 69 instructions (00_scope.md R12, 60_exceptions.md R430). -/

namespace Sys2Proof.Machine

/-- Writing to `x0` changes nothing (10_state.md R23). -/
theorem State.setX_x0 (s : State) (v : Word) : s.setX 0#5 v = s := by
  simp [State.setX, writePort, (portOf_eq_zero 0#5).2 rfl]

theorem Effects.pc {s u : State} (h : Effects s u) : u.pc = s.pc := by rw [h.same]

theorem State.dropReservation_effects (s : State) : Effects s s.dropReservation :=
  ⟨rfl, id, rfl, fun h => by simp [State.dropReservation] at h, id, id, id⟩

/-- The states an instruction executed in `s` can end in. Its own accesses may first have left `u`. -/
inductive InstrEnd (s : State) : State → Prop
  /-- An exception, with the instruction's own pc. -/
  | traps {u : State} (accessed : Effects s u) (code : Nat) (tval : Word) :
    InstrEnd s (takeTrap false code s.pc tval u)
  /-- Completed with a register write; to `x0` where the instruction writes none. -/
  | writes {u : State} (accessed : Effects s u) (rd : Reg) (v : Word) : InstrEnd s (u.setX rd v).advance
  /-- LR.W. -/
  | reserves {u : State} (accessed : Effects s u) (a : Word) (word : wordAligned a) (rd : Reg) (v : Word) :
    InstrEnd s ({ u with reservation := ⟨true, a⟩ }.setX rd v).advance
  /-- A CSR instruction that writes its CSR. -/
  | writesCsr (c : Csr) (new : Word) (rd : Reg) (v : Word) : InstrEnd s ((s.writeCsr c new).setX rd v).advance
  /-- A jump or a taken branch. -/
  | jumps (rd : Reg) (v target : Word) (word : wordAligned target) : InstrEnd s ((s.setX rd v).jump target)
  /-- MRET. -/
  | returnsFromM (p : Priv) : InstrEnd s { s.jump s.mepc with mstatus := statusLeaveM s.mstatus, priv := p }
  /-- SRET. -/
  | returnsFromS : InstrEnd s (returnFromS s)
  /-- SFENCE.VMA. -/
  | fences (rs1 : Reg) : InstrEnd s (fenceTlbs s rs1).advance

namespace InstrEnd
variable {s t : State}

theorem of_raiseExc {u : State} (accessed : Effects s u) (e : Exc) (info : Word) :
    InstrEnd s (raiseExc e info u) := by
  rw [raiseExc, accessed.pc]
  exact .traps accessed _ _

theorem of_raiseIllegal (s : State) (inst : Word) : InstrEnd s (raiseIllegal inst s) :=
  of_raiseExc (Effects.refl s) _ _

theorem of_advance {u : State} (accessed : Effects s u) : InstrEnd s u.advance := by
  have last := InstrEnd.writes accessed 0#5 0#32
  rwa [State.setX_x0] at last

/-! ### The shared shapes of the instructions -/

theorem of_writeBack {rd : Reg} {v : Word} (h : writeBack rd v s = .next t) : InstrEnd s t := by
  cases h
  exact .writes (Effects.refl s) rd v

theorem of_jumpAndLink (rd : Reg) (target : Word) (s : State) : InstrEnd s (jumpAndLink rd target s) := by
  unfold jumpAndLink
  split
  · exact of_raiseExc (Effects.refl s) _ _
  · next aligned => exact .jumps rd _ target (by simpa [misalignedTarget] using aligned)

theorem of_branchIf (cond : Bool) (offset : BitVec 13) (s : State) : InstrEnd s (branchIf cond offset s) := by
  unfold branchIf
  split
  · split
    · exact of_raiseExc (Effects.refl s) _ _
    · next aligned =>
      have last := InstrEnd.jumps (s := s) 0#5 0#32 _ (by simpa [misalignedTarget] using aligned)
      rwa [State.setX_x0] at last
  · exact of_advance (Effects.refl s)

theorem of_loadInto {rd : Reg} {ea : Word} {w : Width} {f : Word → Word} (h : loadInto rd ea w f s = .next t) :
    InstrEnd s t := by
  have accessed := memRead_effects s ea w
  obtain ⟨-, rfl⟩ | ⟨-, v, u, read, rfl⟩ | ⟨-, e, u, read, rfl⟩ := loadInto_next h
  · exact of_raiseExc (Effects.refl s) _ _
  · rw [read] at accessed
    exact .writes accessed rd _
  · rw [read] at accessed
    exact of_raiseExc accessed _ _

theorem of_storeFrom {ea : Word} {w : Width} {v : Word} (h : storeFrom ea w v s = .next t) : InstrEnd s t := by
  have accessed := memWrite_effects s ea w v
  obtain ⟨-, rfl⟩ | ⟨-, u, written, rfl⟩ | ⟨-, e, u, written, rfl⟩ := storeFrom_next h
  · exact of_raiseExc (Effects.refl s) _ _
  · rw [written] at accessed
    exact of_advance accessed
  · rw [written] at accessed
    exact of_raiseExc accessed _ _

/-- A translated address is aligned to words where the virtual one is. -/
theorem wordAligned_translated {ea : Word} {pa : PAddr} (offset : pa.extractLsb' 0 12 = ea.extractLsb' 0 12)
    (word : aligned ea .word = true) : wordAligned (pa.setWidth 32) := by
  have low : ea.extractLsb' 0 2 = 0#2 := by simpa [aligned] using word
  rw [wordAligned, ← low]
  apply BitVec.eq_of_getLsbD_eq
  intro j hj
  have bit := congrArg (BitVec.getLsbD · j) offset
  simpa [hj, show j < 12 by omega, show j < 32 by omega] using bit

theorem of_loadReserved {rd : Reg} {ea : Word} (h : loadReserved rd ea s = .next t) : InstrEnd s t := by
  obtain ⟨-, rfl⟩ | ⟨word, pa, v, u, offset, accessed, rfl⟩ | ⟨-, e, u, accessed, rfl⟩ := loadReserved_next h
  · exact of_raiseExc (Effects.refl s) _ _
  · exact .reserves accessed _ (wordAligned_translated offset word) rd v
  · exact of_raiseExc accessed _ _

theorem of_storeConditional {rd : Reg} {ea v : Word} (h : storeConditional rd ea v s = .next t) : InstrEnd s t := by
  obtain ⟨-, rfl⟩ | ⟨status, u, accessed, rfl⟩ | ⟨e, u, accessed, rfl⟩ := storeConditional_next h
  · exact of_raiseExc (Effects.refl s) _ _
  · exact .writes (accessed.trans u.dropReservation_effects) rd status
  · exact of_raiseExc accessed _ _

theorem of_atomicOp {rd : Reg} {ea src : Word} {op : Word → Word → Word} (h : atomicOp rd ea src op s = .next t) :
    InstrEnd s t := by
  obtain ⟨-, rfl⟩ | ⟨old, u, accessed, rfl⟩ | ⟨e, u, accessed, rfl⟩ := atomicOp_next h
  · exact of_raiseExc (Effects.refl s) _ _
  · exact .writes accessed rd old
  · exact of_raiseExc accessed _ _

theorem of_csrReadWrite (rd : Reg) (c : Csr) (willWrite : Bool) (f : Word → Word) (s : State) :
    InstrEnd s (csrReadWrite rd c willWrite f s) := by
  cases willWrite with
  | true => exact .writesCsr c _ rd _
  | false => exact .writes (Effects.refl s) rd _

theorem of_csrInstruction {inst : Word} {rd : Reg} {a : CsrAddr} {willWrite : Bool} {f : Word → Word}
    (h : csrInstruction inst rd a willWrite f s = .next t) : InstrEnd s t := by
  unfold csrInstruction at h
  split at h
  · cases h; exact of_raiseIllegal s inst
  · split at h
    · cases h; exact of_raiseIllegal s inst
    · cases h
    · cases h; exact of_csrReadWrite rd _ willWrite f s

theorem of_returnFromM (h : returnFromM s = .next t) : InstrEnd s t := by
  unfold returnFromM at h
  split at h
  · cases h; exact .returnsFromM _
  · cases h

/-- An instruction that is illegal in the current mode, or else ends in `u`. -/
theorem of_privileged {inst : Word} {illegal : Prop} [Decidable illegal] {u : State} (last : InstrEnd s u)
    (h : (if illegal then Host.Outcome.next (raiseIllegal inst s) else .next u : Result) = .next t) :
    InstrEnd s t := by
  split at h
  · cases h; exact of_raiseIllegal s inst
  · cases h; exact last

theorem of_execMret (h : execMret s = .next t) : InstrEnd s t := by
  unfold execMret at h
  split at h
  · exact of_returnFromM h
  · cases h; exact of_raiseIllegal s _

/-- Everything an instruction can end in, row by row. -/
theorem of_exec {i : Instr} (h : exec i s = .next t) : InstrEnd s t := by
  cases i with
  | lui | auipc | addi | slti | sltiu | xori | ori | andi | slli | srli | srai | add | sub | sll | slt | sltu | xor
  | srl | sra | or | and | mul | mulh | mulhsu | mulhu | div | divu | rem | remu => exact of_writeBack h
  | jal | jalr => cases h; exact of_jumpAndLink _ _ s
  | beq | bne | blt | bge | bltu | bgeu => cases h; exact of_branchIf _ _ s
  | lb | lh | lw | lbu | lhu => rw [exec] at h; exact of_loadInto h
  | sb | sh | sw => rw [exec] at h; exact of_storeFrom h
  | fence => cases h; exact of_advance (Effects.refl s)
  | lrW => exact of_loadReserved h
  | scW => exact of_storeConditional h
  | amoswapW | amoaddW | amoxorW | amoandW | amoorW | amominW | amomaxW | amominuW | amomaxuW => exact of_atomicOp h
  | csrrw | csrrs | csrrc | csrrwi | csrrsi | csrrci => exact of_csrInstruction h
  | ecall | ebreak => cases h; exact of_raiseExc (Effects.refl s) _ _
  | sret => exact of_privileged .returnsFromS h
  | mret => exact of_execMret h
  | wfi => exact of_privileged (of_advance (Effects.refl s)) h
  | sfenceVma rs1 => exact of_privileged (.fences rs1) h

theorem of_executeWord {w : Word} (h : executeWord w s = .next t) : InstrEnd s t := by
  unfold executeWord at h
  split at h
  · exact of_exec h
  · cases h; exact of_raiseIllegal s w

end InstrEnd

/-! ### From one boundary to the next -/

/-- The fetch makes its translation's access, and a completed one ages what it could see (20_memory.md R160). -/
theorem fetch_done {s u : State} {w : Word} (h : fetch s = .done w u) : ∃ v, Effects s v ∧ u = v.ageFetch := by
  obtain ⟨pa, v, translated, answered⟩ := Access.bind_done h
  have accessed := translate_effects s s.pc .fetch
  rw [translated] at accessed
  refine ⟨v, accessed, ?_⟩
  split at answered <;> cases answered
  rfl

theorem fetch_raise {s u : State} {e : Exc} (h : fetch s = .raise e u) : Effects s u := by
  have accessed := translate_effects s s.pc .fetch
  unfold fetch at h
  cases translated : translate s s.pc .fetch with
  | done pa v =>
    rw [translated] at h accessed
    simp only [Access.bind] at h
    split at h <;> cases h
    exact accessed
  | raise e' v =>
    rw [translated] at h accessed
    cases h
    exact accessed
  | refused r =>
    rw [translated] at h
    cases h

/-- Everything between two boundaries keeps `P` when interrupt entry, the ageing of the fetch path, the accesses and the
ends of an instruction do. -/
theorem afterBoundary_keeps {P : State → Prop} (interrupts : ∀ s code, P s → P (takeTrap true code s.pc 0#32 s))
    (accesses : ∀ s u, Effects s u → P s → P u) (ages : ∀ s, P s → P s.ageFetch)
    (ends : ∀ s t, InstrEnd s t → P s → P t) {s t : State} (hs : P s) (h : afterBoundary s = .next t) : P t := by
  unfold afterBoundary at h
  split at h
  · cases h; exact interrupts s _ hs
  · unfold instructionCycle at h
    split at h
    · next w u fetched =>
      obtain ⟨v, accessed, rfl⟩ := fetch_done fetched
      exact ends _ _ (.of_executeWord h) (ages v (accesses s v accessed hs))
    · next e u fetched =>
      cases h
      exact ends _ _ (.of_raiseExc (Effects.refl u) e u.pc) (accesses s u (fetch_raise fetched) hs)
    · cases h

/-- The environment keeps `P` when each of its events does. -/
theorem environment_keeps {P : State → Prop} {s : State} (inputs : ∀ rest, P s → P { s with inputs := rest })
    (events : ∀ u, ∀ e ∈ s.inputs.headD [], P u → P (applyEvent u e)) (hs : P s) : P (environment s) := by
  unfold environment
  split
  · exact hs
  · next now rest coming =>
    rw [coming] at events
    exact List.foldlRecOn now applyEvent (inputs rest hs) fun u hu e he => events u e he hu

end Sys2Proof.Machine
end

section
/-! PROOFS. The invariant `Legal`: it holds after reset, and the environment, every access, every end of an instruction
and every trap entry keep it (10_state.md R22, R27, R34 to R57, R64, R65). -/

namespace Sys2Proof.Machine

/-! ### Aligned words -/

theorem wordAligned_iff (w : Word) : wordAligned w ↔ w.toNat % 4 = 0 := by
  rw [wordAligned, BitVec.toNat_eq]
  simp

theorem wordAligned_add {a b : Word} (ha : wordAligned a) (hb : wordAligned b) : wordAligned (a + b) := by
  rw [wordAligned_iff] at *
  rw [BitVec.toNat_add]
  omega

theorem wordAligned_and {mask : Word} (h : wordAligned mask) (v : Word) : wordAligned (v &&& mask) := by
  rw [wordAligned, BitVec.extractLsb'_and, h, BitVec.and_zero]

theorem wordAligned_four_mul (v : Word) : wordAligned (4#32 * v) := by
  rw [wordAligned_iff, BitVec.toNat_mul, BitVec.toNat_ofNat]
  omega

/-- A trap goes to an aligned address, whatever its vector holds (60_exceptions.md R432). -/
theorem trapVector_aligned (c : Config) (tvec : Word) (interrupt : Bool) (code : Nat) :
    wordAligned (trapVector c tvec interrupt code) := by
  have base : wordAligned (tvecBase tvec) := wordAligned_and (by decide) tvec
  unfold trapVector
  split
  · exact wordAligned_add base (wordAligned_four_mul _)
  · exact base

/-! ### `mstatus` -/

/-- What `CsrsLegal` asks of `mstatus`. -/
abbrev statusLegal (w : Word) : Prop := maskedBy mstatusMask w ∧ statusMPP w ≠ 0b10#2

theorem maskedBy_setBit {mask w : Word} (h : maskedBy mask w) {i : Nat} (hi : mask.getLsbD i = true) (b : Bool) :
    maskedBy mask (setBit w i b) :=
  (maskedBy_iff _ _).2 fun j hj => by
    have hlt := BitVec.lt_of_getLsbD hj
    rw [setBit_getLsbD _ _ _ _ hlt] at hj
    split at hj
    · next same => rwa [same]
    · exact (maskedBy_iff _ _).1 h j hj

/-- Setting a field other than MPP. -/
theorem statusLegal_setBit {w : Word} (h : statusLegal w) {i : Nat} (hi : i ∈ [1, 3, 5, 7, 8, 18, 19]) (b : Bool) :
    statusLegal (setBit w i b) := by
  obtain ⟨inside, mpp⟩ := h
  have bounds : i < 32 ∧ i ≠ 11 ∧ i ≠ 12 := by revert hi; simp; omega
  obtain ⟨hlt, h11, h12⟩ := bounds
  have field : mstatusMask.getLsbD i = true := by
    rw [mstatusMask_bits i hlt, decide_eq_true_eq]
    revert hi; simp; omega
  refine ⟨maskedBy_setBit inside field b, ?_⟩
  rw [ne_eq, statusMPP_eq_reserved_iff, setBit_getLsbD _ _ _ _ (by decide), setBit_getLsbD _ _ _ _ (by decide),
    if_neg h12.symm, if_neg h11.symm, ← statusMPP_eq_reserved_iff]
  exact mpp

/-- Setting MPP to a mode: no mode is 10 (10_state.md R30). -/
theorem statusLegal_withMPP {w : Word} (h : statusLegal w) (p : Priv) : statusLegal (withMPP w p) := by
  have high : (withMPP w p).getLsbD 12 = p.bits.getLsbD 1 := by
    rw [withMPP, setBit_getLsbD _ _ _ _ (by decide), if_pos rfl]
  have low : (withMPP w p).getLsbD 11 = p.bits.getLsbD 0 := by
    rw [withMPP, setBit_getLsbD _ _ _ _ (by decide), if_neg (by decide), setBit_getLsbD _ _ _ _ (by decide),
      if_pos rfl]
  refine ⟨maskedBy_setBit (maskedBy_setBit h.1 (by decide) _) (by decide) _, ?_⟩
  rw [ne_eq, statusMPP_eq_reserved_iff, high, low]
  cases p <;> decide

theorem statusLegal_enterM {w : Word} (h : statusLegal w) (p : Priv) : statusLegal (statusEnterM w p) :=
  statusLegal_withMPP (statusLegal_setBit (statusLegal_setBit h (by decide) _) (by decide) _) p

theorem statusLegal_enterS {w : Word} (h : statusLegal w) (p : Priv) : statusLegal (statusEnterS w p) :=
  statusLegal_setBit (statusLegal_setBit (statusLegal_setBit h (by decide) _) (by decide) _) (by decide) _

theorem statusLegal_leaveM {w : Word} (h : statusLegal w) : statusLegal (statusLeaveM w) :=
  statusLegal_withMPP (statusLegal_setBit (statusLegal_setBit h (by decide) _) (by decide) _) .U

theorem statusLegal_leaveS {w : Word} (h : statusLegal w) : statusLegal (statusLeaveS w) :=
  statusLegal_setBit (statusLegal_setBit (statusLegal_setBit h (by decide) _) (by decide) _) (by decide) _

/-- The two bits of MPP after a write to `mstatus` (10_state.md R36). -/
theorem legalMstatus_mpp_bits (old v : Word) {j : Nat} (hj : j ∈ [11, 12]) :
    (legalMstatus old v).getLsbD j = if statusMPP v = 0b10#2 then old.getLsbD j else v.getLsbD j := by
  have place : j < 32 ∧ j ∉ [1, 3, 5, 7, 8, 18, 19] := by revert hj; simp; omega
  rw [legalMstatus_getLsbD _ _ _ place.1, if_neg place.2]
  simp only [← statusMPP_eq_reserved_iff, hj, true_and, ite_not]

/-- A write to `mstatus` stores no reserved MPP (10_state.md R36). -/
theorem statusLegal_legalMstatus {old : Word} (h : statusLegal old) (v : Word) : statusLegal (legalMstatus old v) := by
  obtain ⟨inside, mpp⟩ := h
  constructor
  · unfold legalMstatus
    split <;> exact maskedBy_writeMasked inside (by decide) v
  · rw [ne_eq, statusMPP_eq_reserved_iff, legalMstatus_mpp_bits _ _ (by decide), legalMstatus_mpp_bits _ _ (by decide)]
    split
    · rwa [← statusMPP_eq_reserved_iff]
    · next legal => rwa [← statusMPP_eq_reserved_iff]

/-- A write to `sstatus` leaves MPP alone (10_state.md R35). -/
theorem statusLegal_writeSstatus {old : Word} (h : statusLegal old) (v : Word) :
    statusLegal (writeMasked sstatusMask old v) := by
  obtain ⟨inside, mpp⟩ := h
  refine ⟨maskedBy_writeMasked inside (by decide) v, ?_⟩
  rw [ne_eq, statusMPP_eq_reserved_iff, writeMasked_getLsbD, writeMasked_getLsbD, if_neg (by decide),
    if_neg (by decide), ← statusMPP_eq_reserved_iff]
  exact mpp

/-! ### The CSRs -/

theorem CsrsLegal.status {s : State} (h : CsrsLegal s) : statusLegal s.mstatus := ⟨h.mstatus, h.mpp⟩

/-- Legality of the CSRs looks at nothing but eleven of them and the parameters. -/
theorem CsrsLegal.of_same {s t : State} (h : CsrsLegal s)
    (same : t = { s with
      regs := t.regs, pc := t.pc, priv := t.priv, mcause := t.mcause, scause := t.scause, mtval := t.mtval
      stval := t.stval, mscratch := t.mscratch, sscratch := t.sscratch, mcounteren := t.mcounteren
      scounteren := t.scounteren, mcycle := t.mcycle, minstret := t.minstret, reservation := t.reservation
      itlb := t.itlb, dtlb := t.dtlb, extIrqM := t.extIrqM, extIrqS := t.extIrqS, msip := t.msip, mtime := t.mtime
      mtimecmp := t.mtimecmp, mem := t.mem, fetchWindow := t.fetchWindow, itlbGhosts := t.itlbGhosts
      pcTrace := t.pcTrace, inputs := t.inputs, draws := t.draws }) : CsrsLegal t := by
  rw [same]
  exact { h with }

theorem getLsbD_and_clear {mask : Word} {j : Nat} (h : mask.getLsbD j = false) (v : Word) :
    (v &&& mask).getLsbD j = false := by
  rw [BitVec.getLsbD_and, h, Bool.and_false]

theorem tvecLegal_legalTvec {old : Word} (h : tvecLegal old) (v : Word) : tvecLegal (legalTvec old v) := by
  rw [tvecLegal, legalTvec_getLsbD _ _ _ (by decide)]
  split
  · exact h
  · next standard => simpa using standard

theorem satpLegal_legalSatp {c : Config} {old : Word} (h : satpLegal c old) (v : Word) :
    satpLegal c (legalSatp c old v) := by
  constructor
  · intro riscv
    rw [legalSatp_riscv riscv]
    exact getLsbD_and_clear (by decide) v
  · intro psd
    rw [legalSatp_psdText psd]
    split
    · exact h.2 psd
    · next off => simpa using off

/-- A write to `sie` or `sip` writes only bits the field has. -/
theorem maskedBy_delegated {mask m : Word} (h : maskedBy mask m) (mideleg : Word) : maskedBy mask (mideleg &&& m) :=
  (maskedBy_iff _ _).2 fun j hj => by
    rw [BitVec.getLsbD_and, Bool.and_eq_true] at hj
    exact (maskedBy_iff _ _).1 h j hj.2

/-- The write rule of every CSR stores a legal value (10_state.md R34 to R57). -/
theorem CsrsLegal.writeCsr {s : State} (h : CsrsLegal s) (c : Csr) (v : Word) : CsrsLegal (s.writeCsr c v) := by
  cases c with
  | sstatus =>
    obtain ⟨inside, mpp⟩ := statusLegal_writeSstatus h.status v
    exact { h with mstatus := inside, mpp := mpp }
  | mstatus =>
    obtain ⟨inside, mpp⟩ := statusLegal_legalMstatus h.status v
    exact { h with mstatus := inside, mpp := mpp }
  | sie => exact { h with mie := maskedBy_writeMasked h.mie (maskedBy_delegated (by decide) _) v }
  | mie => exact { h with mie := maskedBy_and _ v }
  | sip => exact { h with mipSoft := maskedBy_writeMasked h.mipSoft (maskedBy_delegated (by decide) _) v }
  | mip => exact { h with mipSoft := maskedBy_and _ v }
  | stvec => exact { h with stvec := tvecLegal_legalTvec h.stvec v }
  | mtvec => exact { h with mtvec := tvecLegal_legalTvec h.mtvec v }
  | sepc => exact { h with sepc := wordAligned_and (by decide) v }
  | mepc => exact { h with mepc := wordAligned_and (by decide) v }
  | medeleg => exact { h with medeleg := maskedBy_and _ v }
  | mideleg => exact { h with mideleg := maskedBy_and _ v }
  | satp => exact { h with satp := satpLegal_legalSatp h.satp v }
  | sscratch | scause | stval | mscratch | mcause | mtval | scounteren | mcounteren => exact h.of_same rfl
  | misa | mvendorid | marchid | mimpid | mhartid | mcycle | mcycleh | minstret | minstreth | hpmZero => exact h

/-- Trap entry leaves legal CSRs (60_exceptions.md R431). -/
theorem CsrsLegal.takeTrap {s : State} (h : CsrsLegal s) (interrupt : Bool) (code : Nat) {epc : Word}
    (word : wordAligned epc) (tval : Word) : CsrsLegal (takeTrap interrupt code epc tval s) := by
  cases target : s.delegated interrupt code with
  | true =>
    obtain ⟨inside, mpp⟩ := statusLegal_enterS h.status s.priv
    rw [takeTrap_toS _ _ _ _ _ target]
    exact { h with mstatus := inside, mpp := mpp, sepc := word }
  | false =>
    obtain ⟨inside, mpp⟩ := statusLegal_enterM h.status s.priv
    rw [takeTrap_toM _ _ _ _ _ target]
    exact { h with mstatus := inside, mpp := mpp, mepc := word }

/-- The reset input leaves legal CSRs, whatever the unspecified ones hold (70_reset_and_hazards.md R480, U2). -/
theorem externalReset_csrsLegal (s : State) : CsrsLegal (externalReset s) where
  mstatus := by rw [externalReset_mstatus]; decide
  mpp := by rw [externalReset_mstatus]; decide
  mie := by rw [externalReset_mie]; exact maskedBy_and _ _
  mipSoft := by rw [externalReset_mipSoft]; exact maskedBy_and _ _
  medeleg := by rw [externalReset_medeleg]; exact maskedBy_and _ _
  mideleg := by rw [externalReset_mideleg]; exact maskedBy_and _ _
  mtvec := by rw [externalReset_mtvec]; exact getLsbD_and_clear (by decide) _
  stvec := by rw [externalReset_stvec]; exact getLsbD_and_clear (by decide) _
  mepc := by rw [externalReset_mepc]; exact wordAligned_and (by decide) _
  sepc := by rw [externalReset_sepc]; exact wordAligned_and (by decide) _
  satp := by
    rw [externalReset_satp]
    exact ⟨fun _ => getLsbD_and_clear (by decide) _, fun _ => getLsbD_and_clear (by decide) _⟩

/-! ### The operations of a hart -/

theorem fetchPathBounded_of_flushed {s : State} (window : s.fetchWindow = []) (ghosts : s.itlbGhosts = []) :
    fetchPathBounded s := by
  simp [fetchPathBounded, window, ghosts]

/-- Ageing keeps what the fetch path holds within its bounds (20_memory.md R160). -/
theorem fetchPathBounded_ageFetch {s : State} (h : fetchPathBounded s) : fetchPathBounded s.ageFetch := by
  obtain ⟨window, ghosts⟩ := h
  simp only [fetchPathBounded, State.ageFetch, List.mem_map, List.mem_filter, decide_eq_true_eq]
  constructor
  · rintro _ ⟨b, ⟨hb, young⟩, rfl⟩
    have := (window b hb).2
    dsimp only
    omega
  · rintro _ ⟨g, ⟨hg, young⟩, rfl⟩
    have := (ghosts g hg).2
    dsimp only
    omega

/-- A CSR write changes nothing but CSRs. -/
theorem State.writeCsr_same (s : State) (c : Csr) (v : Word) :
    s.writeCsr c v = { s with
      mstatus := (s.writeCsr c v).mstatus, mie := (s.writeCsr c v).mie, mipSoft := (s.writeCsr c v).mipSoft
      mtvec := (s.writeCsr c v).mtvec, stvec := (s.writeCsr c v).stvec, mepc := (s.writeCsr c v).mepc
      sepc := (s.writeCsr c v).sepc, mcause := (s.writeCsr c v).mcause, scause := (s.writeCsr c v).scause
      mtval := (s.writeCsr c v).mtval, stval := (s.writeCsr c v).stval, medeleg := (s.writeCsr c v).medeleg
      mideleg := (s.writeCsr c v).mideleg, mscratch := (s.writeCsr c v).mscratch
      sscratch := (s.writeCsr c v).sscratch, satp := (s.writeCsr c v).satp
      mcounteren := (s.writeCsr c v).mcounteren, scounteren := (s.writeCsr c v).scounteren } := by
  cases c <;> rfl

namespace Legal
variable {s : State}

theorem accesses {u : State} (h : Legal s) (accessed : Effects s u) : Legal u where
  config := by rw [accessed.config]; exact h.config
  mem := accessed.mem h.mem
  x0 := by rw [accessed.same]; exact h.x0
  pc := by rw [accessed.pc]; exact h.pc
  csrs := h.csrs.of_same (by rw [accessed.same])
  reservation := by rw [accessed.addr]; exact h.reservation
  itlb := by rw [accessed.config]; exact accessed.itlb h.itlb
  dtlb := by rw [accessed.config]; exact accessed.dtlb h.dtlb
  fetchPath := ⟨accessed.window h.fetchPath.1, by rw [accessed.same]; exact h.fetchPath.2⟩

theorem ageFetch (h : Legal s) : Legal s.ageFetch :=
  { h with csrs := h.csrs.of_same rfl, fetchPath := fetchPathBounded_ageFetch h.fetchPath }

theorem setX (h : Legal s) (rd : Reg) (v : Word) : Legal (s.setX rd v) :=
  { h with x0 := (s.setX_get_zero rd v).trans h.x0, csrs := h.csrs.of_same rfl }

theorem advance (h : Legal s) : Legal s.advance :=
  { h with pc := wordAligned_add h.pc (by decide), csrs := h.csrs.of_same rfl }

/-- A redirect to an aligned address. -/
theorem jump (h : Legal s) {target : Word} (word : wordAligned target) : Legal (s.jump target) :=
  { h with pc := word, csrs := h.csrs.of_same rfl, fetchPath := fetchPathBounded_of_flushed rfl rfl }

theorem reserve (h : Legal s) {a : Word} (word : wordAligned a) (valid : Bool) :
    Legal { s with reservation := ⟨valid, a⟩ } :=
  { h with csrs := h.csrs.of_same rfl, reservation := word }

/-- A change of the mode and `mstatus` alone. -/
theorem withStatus (h : Legal s) {w : Word} (status : statusLegal w) (p : Priv) :
    Legal { s with mstatus := w, priv := p } :=
  { h with csrs := { h.csrs with mstatus := status.1, mpp := status.2 } }

theorem writeCsr (h : Legal s) (c : Csr) (v : Word) : Legal (s.writeCsr c v) := by
  have csrs := h.csrs.writeCsr c v
  rw [State.writeCsr_same] at csrs ⊢
  exact { h with csrs := csrs }

theorem takeTrap (h : Legal s) (interrupt : Bool) (code : Nat) {epc : Word} (word : wordAligned epc) (tval : Word) :
    Legal (takeTrap interrupt code epc tval s) where
  config := by rw [takeTrap_config]; exact h.config
  mem := by rw [takeTrap_mem]; exact h.mem
  x0 := by rw [takeTrap_regs]; exact h.x0
  pc := by
    cases target : s.delegated interrupt code with
    | true => rw [takeTrap_toS _ _ _ _ _ target]; exact trapVector_aligned _ _ _ _
    | false => rw [takeTrap_toM _ _ _ _ _ target]; exact trapVector_aligned _ _ _ _
  csrs := h.csrs.takeTrap interrupt code word tval
  reservation := by rw [takeTrap_reservation]; exact h.reservation
  itlb := by rw [takeTrap_itlb, takeTrap_config]; exact h.itlb
  dtlb := by rw [takeTrap_dtlb, takeTrap_config]; exact h.dtlb
  fetchPath := fetchPathBounded_of_flushed (takeTrap_fetchWindow ..) (takeTrap_itlbGhosts ..)

/-- SFENCE.VMA only removes cached translations, and what it removes expires in time (46_system.md R366). -/
theorem fenceTlbs (h : Legal s) (rs1 : Reg) : Legal (fenceTlbs s rs1) :=
  { h with
    csrs := h.csrs.of_same rfl
    itlb := (List.length_filter_le _ _).trans h.itlb
    dtlb := (List.length_filter_le _ _).trans h.dtlb
    fetchPath := by
      refine ⟨h.fetchPath.1, fun g hg => ?_⟩
      obtain removed | old := List.mem_append.1 hg
      · obtain ⟨e, -, rfl⟩ := List.mem_map.1 removed
        exact ⟨(by decide : 0 < fetchAhead), Nat.le_refl _⟩
      · exact h.fetchPath.2 g old }

theorem instrEnd {t : State} (h : Legal s) (last : InstrEnd s t) : Legal t := by
  cases last with
  | traps accessed code tval => exact (h.accesses accessed).takeTrap false code h.pc tval
  | writes accessed rd v => exact ((h.accesses accessed).setX rd v).advance
  | reserves accessed a word rd v => exact (((h.accesses accessed).reserve word true).setX rd v).advance
  | writesCsr c new rd v => exact ((h.writeCsr c new).setX rd v).advance
  | jumps rd v target word => exact (h.setX rd v).jump word
  | returnsFromM p => exact (h.jump h.csrs.mepc).withStatus (statusLegal_leaveM h.csrs.status) p
  | returnsFromS => exact (h.jump h.csrs.sepc).withStatus (statusLegal_leaveS h.csrs.status) _
  | fences rs1 => exact (h.fenceTlbs rs1).advance

/-! ### The environment -/

theorem foreignByte (h : Legal s) (a : Nat) (v : Byte) : Legal (foreignByte s a v) := by
  cases mem : isMemoryByte s.config a with
  | false => rwa [foreignByte_elsewhere mem]
  | true =>
    rw [foreignByte_of_memory mem]
    exact { h with
      csrs := h.csrs.of_same rfl
      mem := Memory.write_wf _ _ _ h.mem
      reservation := by rw [reservationAfterForeign_addr]; exact h.reservation
      fetchPath := by
        refine ⟨fun b hb => ?_, h.fetchPath.2⟩
        obtain new | old := List.mem_append.1 hb
        · exact staleBytes_bounded _ _ _ b new
        · exact h.fetchPath.1 b old }

theorem foreignWrite (h : Legal s) (a : Nat) (vs : List Byte) : Legal (foreignWrite s a vs) := by
  induction vs generalizing s a with
  | nil => exact h
  | cons v vs ih => exact ih (h.foreignByte a v) (a + 1)

theorem foreignClintStore (h : Legal s) (addr v : Word) : Legal (foreignClintStore s addr v) := by
  unfold Machine.foreignClintStore
  split
  · next r _ =>
    have aligned := (reservationAfterForeign_addr s.reservation addr.toNat 4).symm ▸ h.reservation
    cases r <;> exact { h with csrs := h.csrs.of_same rfl, reservation := aligned }
  · exact h

/-- The reset input leaves a legal value in every register it touches (70_reset_and_hazards.md R480 to R483). -/
theorem externalReset (h : Legal s) : Legal (externalReset s) where
  config := by rw [externalReset_config]; exact h.config
  mem := by rw [externalReset_mem]; exact h.mem
  x0 := by rw [externalReset_regs, resetRegs_zero]
  pc := by
    rw [externalReset_pc]
    have wf := h.config
    simp only [Config.wf, Bool.and_eq_true, beq_iff_eq] at wf
    obtain ⟨⟨⟨resetVector, -⟩, -⟩, -⟩ := wf
    exact resetVector
  csrs := externalReset_csrsLegal s
  reservation := by rw [externalReset_reservation]; exact wordAligned_and (by decide) _
  itlb := by simp
  dtlb := by simp
  fetchPath := fetchPathBounded_of_flushed (externalReset_fetchWindow s) (externalReset_itlbGhosts s)

theorem discardInFlight (h : Legal s) : Legal (discardInFlight s) :=
  { h with csrs := h.csrs.of_same rfl, mem := (discardInFlight_mem s h.mem).1 }

theorem applyEvent (h : Legal s) (e : EnvEvent) : Legal (applyEvent s e) := by
  cases e with
  | extIrqM | extIrqS | tick | softwareIrq => exact { h with csrs := h.csrs.of_same rfl }
  | foreignWrite addr bytes => exact h.foreignWrite _ bytes
  | foreignClintStore addr v => exact h.foreignClintStore addr v
  | reset => exact h.discardInFlight.externalReset

theorem passCycles (h : Legal s) : Legal s.passCycles := by
  rw [passCycles_same]
  exact { h with csrs := h.csrs.of_same rfl }

theorem environment (h : Legal s) : Legal (environment s) :=
  environment_keeps (fun _ hs => { hs with csrs := hs.csrs.of_same rfl }) (fun _ e _ hu => hu.applyEvent e) h

theorem afterBoundary {t : State} (h : Legal s) (runs : afterBoundary s = .next t) : Legal t :=
  afterBoundary_keeps (fun _ code hs => hs.takeTrap true code hs.pc 0#32) (fun _ _ accessed hs => hs.accesses accessed)
    (fun _ hs => hs.ageFetch) (fun _ _ last hs => hs.instrEnd last) h runs

end Legal

/-- Settles O11: the environment keeps the invariant, and so does everything up to the next boundary. -/
theorem legalIsKeptByEveryStep : Obligations.LegalIsKeptByEveryStep :=
  fun _ _ legal runs => legal.environment.passCycles.afterBoundary runs

/-- Settles O10: every field that `Legal` asks about is 0 or empty, and the parameters meet their constraints. -/
theorem resetStateIsLegal : Obligations.ResetStateIsLegal where
  config := by decide
  mem := by decide
  x0 := by decide
  pc := by decide
  csrs := by constructor <;> decide
  reservation := by decide
  itlb := Nat.zero_le _
  dtlb := Nat.zero_le _
  fetchPath := fetchPathBounded_of_flushed rfl rfl

/-- Settles O12: `State.reset` holds these values as it stands. -/
theorem resetLeavesTheSpecsValues : Obligations.ResetLeavesTheSpecsValues := by
  refine ⟨rfl, rfl, State.x_zero _, rfl, ?translationOff, rfl, rfl, rfl, rfl, rfl, rfl, rfl, rfl, rfl⟩
  case translationOff => decide

end Sys2Proof.Machine
end

section
/-! PROOFS. What no step touches: `x0`, the registers above x31 and the parameters; and `mcycle`, which only the passing
of cycles at a boundary moves (10_state.md R21, R22, R62; logs 1, 23). -/

namespace Sys2Proof.Machine

/-! ### Between two boundaries -/

/-- `t` holds the parameters, `mcycle`, `x0` and the registers above x31 of `s`. -/
structure KeepsFixed (s t : State) : Prop where
  config : t.config = s.config
  mcycle : t.mcycle = s.mcycle
  regs : ∀ p : Fin 64, p = 0 ∨ 32 ≤ p.val → t.regs.get p = s.regs.get p

namespace KeepsFixed
variable {s t u : State}

theorem of_regs (config : t.config = s.config) (mcycle : t.mcycle = s.mcycle) (regs : t.regs = s.regs) :
    KeepsFixed s t :=
  ⟨config, mcycle, fun p _ => by rw [regs]⟩

theorem trans (h : KeepsFixed s t) (g : KeepsFixed t u) : KeepsFixed s u where
  config := g.config.trans h.config
  mcycle := g.mcycle.trans h.mcycle
  regs := fun p hp => (g.regs p hp).trans (h.regs p hp)

theorem refl (s : State) : KeepsFixed s s := of_regs rfl rfl rfl

theorem of_effects (h : Effects s u) : KeepsFixed s u := by
  rw [h.same]
  exact of_regs rfl rfl rfl

/-- An instruction names only x0 to x31, and ignores a write to x0 (10_state.md R21, R23). -/
theorem of_setX (s : State) (rd : Reg) (v : Word) : KeepsFixed s (s.setX rd v) where
  config := rfl
  mcycle := rfl
  regs := fun p hp => by
    obtain rfl | high := hp
    · exact s.setX_get_zero rd v
    · exact s.setX_get_high rd v p high

theorem of_writeCsr (s : State) (c : Csr) (v : Word) : KeepsFixed s (s.writeCsr c v) := by
  rw [State.writeCsr_same]
  exact of_regs rfl rfl rfl

theorem of_takeTrap (interrupt : Bool) (code : Nat) (epc tval : Word) (s : State) :
    KeepsFixed s (takeTrap interrupt code epc tval s) := by
  rw [takeTrap_same]
  exact of_regs rfl rfl rfl

theorem of_instrEnd (last : InstrEnd s t) : KeepsFixed s t := by
  cases last with
  | traps accessed code tval => exact (of_effects accessed).trans (of_takeTrap ..)
  | writes accessed rd v => exact ((of_effects accessed).trans (of_setX _ rd v)).trans (of_regs rfl rfl rfl)
  | @reserves u accessed a word rd v =>
    have reserved : KeepsFixed u { u with reservation := ⟨true, a⟩ } := of_regs rfl rfl rfl
    exact (((of_effects accessed).trans reserved).trans (of_setX _ rd v)).trans (of_regs rfl rfl rfl)
  | writesCsr c new rd v => exact ((of_writeCsr s c new).trans (of_setX _ rd v)).trans (of_regs rfl rfl rfl)
  | jumps rd v target word => exact (of_setX s rd v).trans (of_regs rfl rfl rfl)
  | returnsFromM p => exact of_regs rfl rfl rfl
  | returnsFromS => exact of_regs rfl rfl rfl
  | fences rs1 => exact of_regs rfl rfl rfl

theorem of_afterBoundary (runs : afterBoundary s = .next t) : KeepsFixed s t :=
  afterBoundary_keeps (P := KeepsFixed s) (fun _ _ h => h.trans (of_takeTrap ..))
    (fun _ _ accessed h => h.trans (of_effects accessed)) (fun _ h => h.trans (of_regs rfl rfl rfl))
    (fun _ _ last h => h.trans (of_instrEnd last)) (refl s) runs

/-- Every event but the reset input leaves the registers and the parameters alone. -/
theorem of_applyEvent (s : State) {e : EnvEvent} (notReset : e ≠ .reset) : KeepsFixed s (applyEvent s e) := by
  cases e with
  | extIrqM | extIrqS | tick | softwareIrq => exact of_regs rfl rfl rfl
  | foreignWrite addr bytes =>
    rw [applyEvent, foreignWrite_same]
    exact of_regs rfl rfl rfl
  | foreignClintStore addr v =>
    rw [applyEvent, foreignClintStore_same]
    exact of_regs rfl rfl rfl
  | reset => exact absurd rfl notReset

theorem of_environment (s : State) (noReset : ∀ e ∈ s.inputs.headD [], e ≠ .reset) : KeepsFixed s (environment s) :=
  environment_keeps (P := KeepsFixed s) (fun _ h => h.trans (of_regs rfl rfl rfl))
    (fun _ e he h => h.trans (of_applyEvent _ (noReset e he))) (refl s)

end KeepsFixed

/-- Settles O59: the boundary and the instruction both keep them; `passCycles` touches neither. -/
theorem upperRegistersNeverChange : Obligations.UpperRegistersNeverChange := by
  intro s t runs noReset
  have before := KeepsFixed.of_environment s noReset
  have after := KeepsFixed.of_afterBoundary runs
  have passed : (atBoundary s).regs = (environment s).regs ∧ (atBoundary s).config = (environment s).config := by
    rw [atBoundary, passCycles_same]
    exact ⟨rfl, rfl⟩
  refine ⟨fun p hp => ?_, ?_⟩
  · rw [after.regs p hp, passed.1, before.regs p hp]
  · rw [after.config, passed.2, before.config]

/-! ### The counters -/

/-- A 64-bit register read in two halves (10_state.md R62). -/
theorem halves_toNat (x : BitVec 64) :
    (x.extractLsb' 32 32).toNat * 2 ^ 32 + (x.extractLsb' 0 32).toNat = x.toNat := by
  have := x.isLt
  simp only [BitVec.extractLsb'_toNat, Nat.shiftRight_eq_div_pow]
  omega

theorem applyEvent_mcycle (s : State) (e : EnvEvent) : (applyEvent s e).mcycle = s.mcycle := by
  by_cases reset : e = .reset
  · subst reset
    rw [applyEvent, externalReset_mcycle, discardInFlight_same]
  · exact (KeepsFixed.of_applyEvent s reset).mcycle

theorem environment_mcycle (s : State) : (environment s).mcycle = s.mcycle :=
  environment_keeps (P := fun u => u.mcycle = s.mcycle) (fun _ h => h)
    (fun u e _ h => (applyEvent_mcycle u e).trans h) rfl

theorem passCycles_mcycle_ge (s : State) : s.mcycle.toNat ≤ s.passCycles.mcycle.toNat := by
  unfold State.passCycles
  split
  · exact nextCycle_ge _ _
  · exact Nat.le_refl _

/-- `mcycle` does not decrease over a step (10_state.md R62). -/
theorem step_mcycle_ge {s t : State} (runs : step s = .next t) : s.mcycle.toNat ≤ t.mcycle.toNat :=
  calc s.mcycle.toNat = (environment s).mcycle.toNat := by rw [environment_mcycle]
    _ ≤ (atBoundary s).mcycle.toNat := passCycles_mcycle_ge _
    _ = t.mcycle.toNat := by rw [(KeepsFixed.of_afterBoundary runs).mcycle]

/-- Settles O47: the reads are halves of the counters, and `mcycle` moves at the boundary alone. -/
theorem countersReadAndCount : Obligations.CountersReadAndCount := by
  intro s v
  refine ⟨halves_toNat s.minstret, halves_toNat s.mcycle, rfl, rfl, rfl, fun c hc => ?fixed,
    fun t runs => step_mcycle_ge runs⟩
  case fixed =>
    simp only [List.mem_cons, List.not_mem_nil, or_false] at hc
    obtain rfl | rfl | rfl | rfl | rfl := hc <;> rfl

end Sys2Proof.Machine
end

section
/-! PROOFS. Where an access goes: the effective address and its alignment, and what the address map answers, class by
class (20_memory.md R105 to R111, R131, R137, 42_rv32i_loadstore.md R270). -/

namespace Sys2Proof.Machine

/-! ### Effective addresses and alignment -/

theorem aligned_half_iff (a : Word) : aligned a .half = true ↔ a.toNat % 2 = 0 := by
  rw [aligned, beq_iff_eq, BitVec.toNat_eq]
  simp

theorem aligned_word_iff (a : Word) : aligned a .word = true ↔ a.toNat % 4 = 0 := by
  rw [aligned, beq_iff_eq]
  exact wordAligned_iff a

/-- Base plus displacement, taken as signed integers (42_rv32i_loadstore.md R270). -/
theorem effectiveAddress_signExtend (s : State) (base : Reg) (imm : BitVec 12) :
    effectiveAddress s base (imm.signExtend 32) = BitVec.ofInt 32 ((s.x base).toInt + imm.toInt) := by
  rw [effectiveAddress, BitVec.ofInt_add, BitVec.ofInt_toInt, ← BitVec.toInt_signExtend_of_le (by decide : 12 ≤ 32),
    BitVec.ofInt_toInt]

section
variable {ea : Word} {w : Width} (h : aligned ea w = false)
include h

theorem loadInto_of_misaligned (rd : Reg) (f : Word → Word) (s : State) :
    loadInto rd ea w f s = .next (raiseExc .loadAddressMisaligned ea s) := by
  simp [loadInto, h]

theorem storeFrom_of_misaligned (v : Word) (s : State) :
    storeFrom ea w v s = .next (raiseExc .storeAmoAddressMisaligned ea s) := by
  simp [storeFrom, h]

end

section
variable {ea : Word} (h : aligned ea .word = false)
include h

theorem loadReserved_of_misaligned (rd : Reg) (s : State) :
    loadReserved rd ea s = .next (raiseExc .loadAddressMisaligned ea s) := by
  simp [loadReserved, h]

theorem storeConditional_of_misaligned (rd : Reg) (v : Word) (s : State) :
    storeConditional rd ea v s = .next (raiseExc .storeAmoAddressMisaligned ea s) := by
  simp [storeConditional, h]

theorem atomicOp_of_misaligned (rd : Reg) (src : Word) (op : Word → Word → Word) (s : State) :
    atomicOp rd ea src op s = .next (raiseExc .storeAmoAddressMisaligned ea s) := by
  simp [atomicOp, h]

end

/-! ### The instructions as the shapes they share -/

section
variable (s : State) (rd rs1 rs2 : Reg) (imm : BitVec 12) (aq rl : Bool)

theorem exec_lbu : exec (.lbu rd rs1 imm) s =
    loadInto rd (BitVec.ofInt 32 ((s.x rs1).toInt + imm.toInt)) .byte id s := by
  rw [← effectiveAddress_signExtend]; rfl

theorem exec_lh : exec (.lh rd rs1 imm) s =
    loadInto rd (BitVec.ofInt 32 ((s.x rs1).toInt + imm.toInt)) .half (extendSigned .half) s := by
  rw [← effectiveAddress_signExtend]; rfl

theorem exec_lhu : exec (.lhu rd rs1 imm) s =
    loadInto rd (BitVec.ofInt 32 ((s.x rs1).toInt + imm.toInt)) .half id s := by
  rw [← effectiveAddress_signExtend]; rfl

theorem exec_lw : exec (.lw rd rs1 imm) s =
    loadInto rd (BitVec.ofInt 32 ((s.x rs1).toInt + imm.toInt)) .word id s := by
  rw [← effectiveAddress_signExtend]; rfl

theorem exec_sh : exec (.sh rs1 rs2 imm) s =
    storeFrom (BitVec.ofInt 32 ((s.x rs1).toInt + imm.toInt)) .half (s.x rs2) s := by
  rw [← effectiveAddress_signExtend]; rfl

theorem exec_sw : exec (.sw rs1 rs2 imm) s =
    storeFrom (BitVec.ofInt 32 ((s.x rs1).toInt + imm.toInt)) .word (s.x rs2) s := by
  rw [← effectiveAddress_signExtend]; rfl

theorem exec_lrW : exec (.lrW rd rs1 aq rl) s = loadReserved rd (s.x rs1) s := rfl

theorem exec_scW : exec (.scW rd rs1 rs2 aq rl) s = storeConditional rd (s.x rs1) (s.x rs2) s := rfl

end

/-- Settles O25: each shape of an access tests the alignment of the effective address before anything else. -/
theorem misalignedAccessesRaise : Obligations.MisalignedAccessesRaise := by
  intro s rd rs1 rs2 imm aq rl ea
  refine ⟨?loadsAndStores, ?atomics, rfl⟩
  case loadsAndStores =>
    rintro rfl
    refine ⟨fun unaligned => ?halves, fun unaligned => ?words⟩
    case halves =>
      rw [ne_eq, ← aligned_half_iff, Bool.not_eq_true] at unaligned
      exact ⟨(exec_lh ..).trans (loadInto_of_misaligned unaligned _ _ s),
        (exec_lhu ..).trans (loadInto_of_misaligned unaligned _ _ s),
        (exec_sh ..).trans (storeFrom_of_misaligned unaligned _ s)⟩
    case words =>
      rw [ne_eq, ← aligned_word_iff, Bool.not_eq_true] at unaligned
      exact ⟨(exec_lw ..).trans (loadInto_of_misaligned unaligned _ _ s),
        (exec_sw ..).trans (storeFrom_of_misaligned unaligned _ s)⟩
  case atomics =>
    rintro rfl unaligned
    rw [ne_eq, ← aligned_word_iff, Bool.not_eq_true] at unaligned
    have amo : ∀ i op, exec i s = atomicOp rd (s.x rs1) (s.x rs2) op s → Raises i s 6 (s.x rs1) :=
      fun i op runs => runs.trans (atomicOp_of_misaligned unaligned rd (s.x rs2) op s)
    exact ⟨(exec_lrW ..).trans (loadReserved_of_misaligned unaligned _ s),
      (exec_scW ..).trans (storeConditional_of_misaligned unaligned _ _ s),
      amo _ (fun _ src => src) rfl, amo _ (· + ·) rfl, amo _ (· ^^^ ·) rfl, amo _ (· &&& ·) rfl, amo _ (· ||| ·) rfl,
      amo _ minSigned rfl, amo _ maxSigned rfl, amo _ minUnsigned rfl, amo _ maxUnsigned rfl⟩

/-! ### The address map -/

theorem physAccessOk_eq_false_iff (c : Config) (pa : PAddr) (n : Nat) (k : AccessKind) :
    physAccessOk c pa n k = false ↔ physTarget c pa n k = none := by
  simp [physAccessOk]

theorem inRam_iff (c : Config) (a n : Nat) : inRam c a n = true ↔ ramBase ≤ a ∧ a + n ≤ ramBase + c.ramSize := by
  simp [inRam]

theorem regionHolds_iff (g : Region) (a n : Nat) : regionHolds g a n = true ↔ regionContains g a n := by
  simp [regionHolds]

theorem regionPermits_iff (g : Region) (k : AccessKind) : regionPermits g k = true ↔ regionTakes g k := by
  cases k <;> rfl

section
variable {c : Config} {pa : PAddr} {n : Nat} {k : AccessKind}

theorem physTarget_beyond (h : 2 ^ 32 ≤ pa.toNat) : physTarget c pa n k = none := if_pos h

theorem physTarget_ram (h : pa.toNat < 2 ^ 32) (ram : inRam c pa.toNat n = true) :
    physTarget c pa n k = some .memory := by
  simp only [physTarget, Nat.not_le.2 h, ram, if_false, if_true]

theorem physTarget_clintWord {r : ClintReg} (h : pa.toNat < 2 ^ 32) (ram : inRam c pa.toNat n = false)
    (word : clintRegAt c pa.toNat n = some r) :
    physTarget c pa n k = if k = .fetch then none else some (.clint r) := by
  simp only [physTarget, Nat.not_le.2 h, ram, word, Bool.false_eq_true, if_false]

/-- Outside RAM and the CLINT words the first region that holds the access decides (log 21). -/
theorem physTarget_region (h : pa.toNat < 2 ^ 32) (ram : inRam c pa.toNat n = false)
    (noWord : clintRegAt c pa.toNat n = none) :
    physTarget c pa n k = (c.regions.find? (regionHolds · pa.toNat n)).bind fun g =>
      if regionPermits g k then some (regionTarget g.kind) else none := by
  simp only [physTarget, Nat.not_le.2 h, ram, noWord, Bool.false_eq_true, if_false]
  cases c.regions.find? (regionHolds · pa.toNat n) <;> rfl

end

theorem find?_regionHolds_of_first {before after : List Region} {g : Region} {a n : Nat}
    (passed : ∀ q ∈ before, ¬ regionContains q a n) (holds : regionContains g a n) :
    (before ++ g :: after).find? (regionHolds · a n) = some g := by
  rw [List.find?_append, List.find?_eq_none.2 fun q hq => by rw [regionHolds_iff]; exact passed q hq,
    Option.none_or]
  exact List.find?_cons_of_pos ((regionHolds_iff g a n).2 holds)

theorem find?_regionHolds_eq_none {regions : List Region} {a n : Nat}
    (h : ∀ q ∈ regions, ¬ regionContains q a n) : regions.find? (regionHolds · a n) = none :=
  List.find?_eq_none.2 fun q hq => by rw [regionHolds_iff]; exact h q hq

/-- With the constraints on the parameters, RAM ends within 32 bits (00_scope.md R7). -/
theorem Config.ramEnd_le_of_wf {c : Config} (h : c.wf = true) : ramBase + c.ramSize ≤ 2 ^ 32 := by
  simp only [Config.wf, Bool.and_eq_true, decide_eq_true_eq] at h
  obtain ⟨⟨-, fits⟩, -⟩ := h
  exact fits

/-- An untranslated access to RAM reaches the memory at its own address (20_memory.md R105, R131). -/
theorem plainRam.reaches {s : State} {ea : Word} {n : Nat} (h : plainRam s ea n) (k : AccessKind) :
    reaches s ea n k (ea.setWidth 34) s := by
  obtain ⟨off, ram⟩ := h
  refine ⟨translate_off off ea k, physTarget_ram ?_ ?_⟩
  · rw [toNat_word_setWidth_paddr]; exact ea.isLt
  · rwa [toNat_word_setWidth_paddr]

/-- Settles O21: one lemma above per class of addresses. -/
theorem accessesFollowTheAddressMap : Obligations.AccessesFollowTheAddressMap := by
  refine ⟨fun c pa n k size => ⟨fun beyond => ?beyond, fun wf low high => ?ram, fun fits notRam => ⟨?clint, ?regions⟩⟩,
    fun s ea n k plain _ => ⟨plain.reaches k, toNat_word_setWidth_paddr ea⟩⟩
  case beyond => rw [physAccessOk_eq_false_iff, physTarget_beyond beyond]
  case ram =>
    have fits := Config.ramEnd_le_of_wf wf
    exact physTarget_ram (by omega) ((inRam_iff _ _ _).2 ⟨low, high⟩)
  case clint =>
    rintro r rfl address
    have answers := fun k => physTarget_clintWord (k := k) fits notRam (clintRegAt_address c _ r address)
    exact ⟨answers .load, answers .store, (physAccessOk_eq_false_iff _ _ _ _).2 (answers .fetch)⟩
  case regions =>
    intro notClint
    have answer := physTarget_region (k := k) fits notRam (clintRegAt_elsewhere c _ n notClint)
    refine ⟨fun before after g split passed holds => ?first, fun vacant => ?none⟩
    case first =>
      rw [split, find?_regionHolds_of_first passed holds, Option.bind_some] at answer
      simp only [← regionPermits_iff]
      refine ⟨fun takes => ?_, fun refuses => ?_⟩
      · rw [answer, if_pos takes]
        cases g.kind <;> rfl
      · rw [physAccessOk_eq_false_iff, answer, if_neg refuses]
    case none => rw [physAccessOk_eq_false_iff, answer, find?_regionHolds_eq_none vacant, Option.bind_none]

/-! ### The address a leaf gives -/

theorem leafAddress_page_toNat (pte va : Word) :
    (leafAddress pte va .page).toNat = pte.toNat / 2 ^ 10 * 2 ^ 12 + va.toNat % 2 ^ 12 := by
  have hp := pte.isLt
  rw [leafAddress, BitVec.toNat_append, ← Nat.shiftLeft_add_eq_or_of_lt (BitVec.isLt _), Nat.shiftLeft_eq,
    BitVec.extractLsb'_toNat, BitVec.extractLsb'_toNat, Nat.shiftRight_eq_div_pow, Nat.shiftRight_eq_div_pow]
  omega

theorem leafAddress_megapage_toNat (pte va : Word) :
    (leafAddress pte va .megapage).toNat = pte.toNat / 2 ^ 20 * 2 ^ 22 + va.toNat % 2 ^ 22 := by
  have hp := pte.isLt
  rw [leafAddress, BitVec.toNat_append, ← Nat.shiftLeft_add_eq_or_of_lt (BitVec.isLt _), Nat.shiftLeft_eq,
    BitVec.extractLsb'_toNat, BitVec.extractLsb'_toNat, Nat.shiftRight_eq_div_pow, Nat.shiftRight_eq_div_pow]
  omega

theorem two_pow_32_le_of_high_bits {pa : PAddr} (h : pa.extractLsb' 32 2 ≠ 0#2) : 2 ^ 32 ≤ pa.toNat := by
  rw [ne_eq, BitVec.toNat_eq, BitVec.extractLsb'_toNat, Nat.shiftRight_eq_div_pow, BitVec.toNat_ofNat] at h
  omega

/-- Settles O37: the two halves of the address are disjoint bit fields, and nothing answers beyond 32 bits. -/
theorem leavesFormThePhysicalAddress : Obligations.LeavesFormThePhysicalAddress := by
  intro pte va
  refine ⟨leafAddress_page_toNat pte va, leafAddress_megapage_toNat pte va, fun l c n k high => ?_⟩
  rw [physAccessOk_eq_false_iff]
  exact physTarget_beyond (two_pow_32_le_of_high_bits high)

end Sys2Proof.Machine
end

section
/-! PROOFS. What a fetch sees: the bytes in memory and those recent stores replaced, how long these last, and the word
an untranslated fetch from RAM returns (20_memory.md R102, R119, R131, R160; logs 18, 19). -/

namespace Sys2Proof.Machine

/-! ### One byte -/

theorem mem_staleValues_iff (window : List StaleByte) (a : Nat) (v : Byte) :
    v ∈ staleValues window a ↔ ∃ b ∈ window, b.addr = a ∧ b.old = v := by
  simp [staleValues, and_assoc]

theorem staleValues_eq_nil {window : List StaleByte} {a : Nat} (h : ∀ b ∈ window, b.addr ≠ a) :
    staleValues window a = [] := by
  rw [List.eq_nil_iff_forall_not_mem]
  intro v hv
  obtain ⟨b, hb, ha, -⟩ := (mem_staleValues_iff window a v).1 hv
  exact h b hb ha

theorem getD_mem_of_mem {α : Type} {l : List α} {d : α} (h : d ∈ l) (i : Nat) : l.getD i d ∈ l := by
  rw [List.getD_eq_getElem?_getD]
  cases hi : l[i]? with
  | none => exact h
  | some v => exact List.mem_of_getElem? hi

theorem State.fetchByte_of_settled {s : State} {a : Nat} (h : ∀ b ∈ s.fetchWindow, b.addr ≠ a) (k : Nat) :
    s.fetchByte a k = s.mem.read a := by
  rw [State.fetchByte, staleValues_eq_nil h]

/-- A fetch sees the byte in memory or an old value still in the window (20_memory.md R160 (b)). -/
theorem State.fetchByte_mem (s : State) (a k : Nat) :
    s.fetchByte a k ∈ s.mem.read a :: staleValues s.fetchWindow a := by
  unfold State.fetchByte
  split
  · exact List.mem_cons_self
  · next v vs stale =>
    rw [stale]
    exact getD_mem_of_mem List.mem_cons_self _

/-! ### How long a replaced byte lasts -/

/-- What the fetch path holds is gone after `n` more fetches. -/
def fetchPathWithin (n : Nat) (s : State) : Prop :=
  (∀ b ∈ s.fetchWindow, 0 < b.fetches ∧ b.fetches ≤ n) ∧ ∀ g ∈ s.itlbGhosts, 0 < g.fetches ∧ g.fetches ≤ n

theorem fetchPathWithin_zero_iff (s : State) : fetchPathWithin 0 s ↔ s.fetchWindow = [] ∧ s.itlbGhosts = [] := by
  have never : ∀ n : Nat, ¬ (0 < n ∧ n ≤ 0) := by omega
  simp only [fetchPathWithin, never, imp_false, List.eq_nil_iff_forall_not_mem]

theorem fetchPathWithin_ageFetch {n : Nat} {s : State} (h : fetchPathWithin (n + 1) s) :
    fetchPathWithin n s.ageFetch := by
  obtain ⟨window, ghosts⟩ := h
  simp only [fetchPathWithin, State.ageFetch, List.mem_map, List.mem_filter, decide_eq_true_eq]
  constructor
  · rintro _ ⟨b, ⟨hb, young⟩, rfl⟩
    have := (window b hb).2
    dsimp only
    omega
  · rintro _ ⟨g, ⟨hg, young⟩, rfl⟩
    have := (ghosts g hg).2
    dsimp only
    omega

/-! ### Redirects -/

theorem execMret_fetchWindow {s t : State} (h : exec .mret s = .next t) : t.fetchWindow = [] := by
  change execMret s = .next t at h
  unfold execMret returnFromM at h
  split at h
  · split at h <;> cases h
    rfl
  · cases h
    exact takeTrap_fetchWindow ..

theorem execSret_fetchWindow {s t : State} (h : exec .sret s = .next t) : t.fetchWindow = [] := by
  change execSret s = .next t at h
  unfold execSret at h
  split at h <;> cases h
  · exact takeTrap_fetchWindow ..
  · rfl

/-- Settles O30: the byte seen is one of a list, and each fetch takes one off what is left of a replaced byte. -/
theorem fetchesSeeStoresInTime : Obligations.FetchesSeeStoresInTime := by
  intro s a k
  refine ⟨?seen, fun settled => State.fetchByte_of_settled settled k, fun bounded => ?expires, fun _ => rfl,
    fun _ _ _ _ => takeTrap_fetchWindow .., fun t returns => returns.elim execMret_fetchWindow execSret_fetchWindow⟩
  case seen =>
    refine (List.mem_cons.1 (s.fetchByte_mem a k)).imp_right fun stale => ?_
    obtain ⟨b, hb, ha, old⟩ := (mem_staleValues_iff _ _ _).1 stale
    exact ⟨b, hb, ha, old.symm⟩
  case expires =>
    have four : fetchPathWithin 4 s := bounded
    exact (fetchPathWithin_zero_iff _).1 (fetchPathWithin_ageFetch (fetchPathWithin_ageFetch
      (fetchPathWithin_ageFetch (fetchPathWithin_ageFetch four))))

/-! ### An untranslated fetch from RAM -/

theorem fetch_plainRam {s : State} (h : plainRam s s.pc 4) :
    fetch s = .done (s.fetchWordAt s.pc.toNat) s.ageFetch := by
  obtain ⟨translated, answered⟩ := h.reaches .fetch
  simp only [fetch, translated, Access.bind, answered, toNat_word_setWidth_paddr]

theorem State.fetchWordAt_of_settled {s : State} (h : s.fetchWindow = []) (a : Nat) :
    s.fetchWordAt a = wordAt s.mem a := by
  have seen : ∀ a k, s.fetchByte a k = s.mem.read a := fun a k => State.fetchByte_of_settled (by simp [h]) k
  simp only [State.fetchWordAt, seen, wordOfBytes, wordAt]

/-- With no replaced byte pending, a fetch ages only the flushed translations. -/
theorem State.ageFetch_of_settled {s : State} (h : s.fetchWindow = []) :
    s.ageFetch = { s with itlbGhosts := s.ageFetch.itlbGhosts } := by
  simp [State.ageFetch, h]

/-- Settles O8: the fetch returns the word in memory, and the step runs what it decodes to. -/
theorem bytesAtThePcAreRun : Obligations.BytesAtThePcAreRun := by
  rintro s b i rfl quiet plain settled - decoded
  have fetched := fetch_plainRam plain
  rw [State.fetchWordAt_of_settled settled, State.ageFetch_of_settled settled] at fetched
  have runs := ((stepRunsTheDecodedInstruction s).2 quiet _ _ fetched).1 i decoded
  refine ⟨runs, fun noGhosts => ?_⟩
  have unaged : (atBoundary s).ageFetch.itlbGhosts = (atBoundary s).itlbGhosts := by simp [State.ageFetch, noGhosts]
  rwa [unaged] at runs

end Sys2Proof.Machine
end

section
/-! PROOFS. Loads, stores, LR.W and SC.W where the access reaches memory, and pairs of them in untranslated RAM
(20_memory.md R100, R101, R120, R121, R150, R154, 44_a_extension.md R312, R313). -/

namespace Sys2Proof.Machine

/-! ### The memory a store leaves -/

theorem wordAt_eq_load (m : Memory) (a : Nat) : wordAt m a = m.load a .word := rfl

theorem wordAt_store (m : Memory) (a : Nat) (v : Word) (h : Memory.wf m) : wordAt (m.store a .word v) a = v :=
  Memory.load_store m a .word v h

/-- A store makes its bytes those of the value and leaves the others. -/
theorem bytesBecome_of_store {s t : State} {a : Nat} {w : Width} {v : Word} (wf : Memory.wf s.mem)
    (h : t.mem = s.mem.store a w v) : BytesBecome s t a w.bytes v := by
  rw [BytesBecome, h]
  exact ⟨fun i hi => Memory.read_store_inside _ a i w v wf hi, fun b out => Memory.read_store_outside _ a b w v wf out⟩

theorem load_byte_of_stored_word {m : Memory} (h : Memory.wf m) (a : Nat) (v : Word) {k : Nat} (hk : k < 4) :
    ((m.store a .word v).load (a + k) .byte).toNat = v.toNat / 2 ^ (8 * k) % 2 ^ 8 := by
  rw [Memory.load, Memory.read_store_inside m a k .word v h hk, BitVec.toNat_setWidth_of_le (by decide),
    BitVec.extractLsb'_toNat, Nat.shiftRight_eq_div_pow]

theorem load_half_of_stored_word {m : Memory} (h : Memory.wf m) (a : Nat) (v : Word) {k : Nat} (hk : k + 1 < 4) :
    ((m.store a .word v).load (a + k) .half).toNat = v.toNat / 2 ^ (8 * k) % 2 ^ 16 := by
  rw [Memory.load, Nat.add_assoc, Memory.read_store_inside m a (k + 1) .word v h hk,
    Memory.read_store_inside m a k .word v h (Nat.lt_of_succ_lt hk),
    BitVec.extractLsb'_append_extractLsb'_eq_extractLsb' (by omega), BitVec.toNat_setWidth_of_le (by decide),
    BitVec.extractLsb'_toNat, Nat.shiftRight_eq_div_pow]

/-- The state after the hart's own store of the low bytes of `v` to memory at `a`. -/
def State.stored (s : State) (a : Nat) (w : Width) (v : Word) : State :=
  { s with
    mem := s.mem.store a w v
    fetchWindow := staleBytes s.mem a w.bytes ++ s.fetchWindow
    reservation := reservationAfterOwnWrite s.config s.reservation a w.bytes }

theorem storeTo_memory (s : State) (pa : PAddr) (w : Width) (v : Word) :
    storeTo s .memory pa w v = .done () (s.stored pa.toNat w v) := rfl

@[simp] theorem State.advance_x (s : State) (r : Reg) : s.advance.x r = s.x r := rfl

/-! ### An access that reaches memory -/

section
variable {s u : State} {ea : Word} {pa : PAddr}

theorem memRead_of_reaches {w : Width} (h : reaches s ea w.bytes .load pa u) :
    memRead s ea w = .done (u.mem.load pa.toNat w) u := by
  obtain ⟨translated, answered⟩ := h
  simp only [memRead, translated, Access.bind, physLoad, answered, physRead]

theorem memWrite_of_reaches {w : Width} (h : reaches s ea w.bytes .store pa u) (v : Word) :
    memWrite s ea w v = .done () (u.stored pa.toNat w v) := by
  obtain ⟨translated, answered⟩ := h
  simp only [memWrite, translated, Access.bind, physStore, answered, storeTo_memory]

theorem loadInto_of_reaches {w : Width} (word : aligned ea w = true) (h : reaches s ea w.bytes .load pa u) (rd : Reg)
    (f : Word → Word) : loadInto rd ea w f s = .next (u.setX rd (f (u.mem.load pa.toNat w))).advance := by
  simp [loadInto, word, memRead_of_reaches h, Access.finish]

theorem storeFrom_of_reaches {w : Width} (word : aligned ea w = true) (h : reaches s ea w.bytes .store pa u)
    (v : Word) : storeFrom ea w v s = .next (u.stored pa.toNat w v).advance := by
  simp [storeFrom, word, memWrite_of_reaches h, Access.finish]

theorem loadReserved_of_reaches (word : aligned ea .word = true) (h : reaches s ea 4 .load pa u) (rd : Reg) :
    loadReserved rd ea s =
      .next ({ u with reservation := ⟨true, pa.setWidth 32⟩ }.setX rd (wordAt u.mem pa.toNat)).advance := by
  obtain ⟨translated, answered⟩ := h
  simp [loadReserved, word, translated, Access.bind, physLoad, Width.bytes, answered, physRead, Access.finish,
    wordAt_eq_load]

theorem storeConditional_of_reserved (word : aligned ea .word = true) (h : reaches s ea 4 .store pa u)
    (reserved : u.reservedAt pa = true) (rd : Reg) (v : Word) :
    storeConditional rd ea v s = .next ((u.stored pa.toNat .word v).dropReservation.setX rd 0#32).advance := by
  obtain ⟨translated, answered⟩ := h
  simp [storeConditional, word, translated, Access.bind, conditionalStore, answered, reserved, storeTo_memory,
    Access.finish]

theorem storeConditional_of_unreserved (word : aligned ea .word = true)
    (translated : translate s ea .store = .done pa u) (permitted : physAccessOk u.config pa 4 .store = true)
    (unreserved : u.reservedAt pa = false) (rd : Reg) (v : Word) :
    storeConditional rd ea v s = .next (u.dropReservation.setX rd 1#32).advance := by
  obtain ⟨t, answered⟩ := Option.isSome_iff_exists.1 permitted
  simp [storeConditional, word, translated, Access.bind, conditionalStore, answered, unreserved, Access.finish]

end

/-! ### Untranslated RAM -/

/-- Whether an access goes to RAM untranslated depends on the mode, `satp` and the parameters alone. -/
theorem plainRam.of_same {s t : State} {ea : Word} {n : Nat} (h : plainRam s ea n)
    (same : t.priv = s.priv ∧ t.satp = s.satp ∧ t.config = s.config) : plainRam t ea n := by
  obtain ⟨priv, satp, config⟩ := same
  simpa only [plainRam, State.translates, priv, satp, config] using h

theorem toNat_add_within_word {ea : Word} {k : Nat} (word : ea.toNat % 4 = 0) (hk : k < 4) :
    (ea + BitVec.ofNat 32 k).toNat = ea.toNat + k := by
  have := ea.isLt
  rw [BitVec.toNat_add, BitVec.toNat_ofNat]
  omega

theorem plainRam.part {s : State} {ea : Word} (h : plainRam s ea 4) (word : ea.toNat % 4 = 0) {k n : Nat} (hk : k < 4)
    (fits : k + n ≤ 4) : plainRam s (ea + BitVec.ofNat 32 k) n := by
  obtain ⟨off, ram⟩ := h
  refine ⟨off, ?_⟩
  rw [inRam_iff] at ram ⊢
  rw [toNat_add_within_word word hk]
  omega

theorem plainRam.load {s : State} {ea : Word} {w : Width} (h : plainRam s ea w.bytes) (word : aligned ea w = true)
    (rd : Reg) (f : Word → Word) : loadInto rd ea w f s = .next (s.setX rd (f (s.mem.load ea.toNat w))).advance := by
  rw [loadInto_of_reaches word (h.reaches .load), toNat_word_setWidth_paddr]

theorem plainRam.store {s : State} {ea : Word} {w : Width} (h : plainRam s ea w.bytes) (word : aligned ea w = true)
    (v : Word) : storeFrom ea w v s = .next (s.stored ea.toNat w v).advance := by
  rw [storeFrom_of_reaches word (h.reaches .store), toNat_word_setWidth_paddr]

/-- What a completed load leaves in its register. -/
theorem State.setX_advance_x {rd : Reg} (h : rd ≠ 0#5) (s : State) (v : Word) : (s.setX rd v).advance.x rd = v := by
  rw [State.advance_x, State.x_setX, if_pos ⟨rfl, h⟩]

/-- A load from the word just stored in RAM completes, with the bytes the store left. -/
theorem plainRam.load_after_store {s : State} {ea : Word} (h : plainRam s ea 4) (word : ea.toNat % 4 = 0) {k : Nat}
    {w : Width} (hk : k < 4) (fits : k + w.bytes ≤ 4) (part : aligned (ea + BitVec.ofNat 32 k) w = true) {rd : Reg}
    (hrd : rd ≠ 0#5) (v : Word) (f : Word → Word) :
    ∃ u, loadInto rd (ea + BitVec.ofNat 32 k) w f (s.stored ea.toNat .word v).advance = .next u ∧
      u.x rd = f ((s.mem.store ea.toNat .word v).load (ea.toNat + k) w) := by
  have after : plainRam (s.stored ea.toNat .word v).advance (ea + BitVec.ofNat 32 k) w.bytes :=
    (h.part word hk fits).of_same ⟨rfl, rfl, rfl⟩
  refine ⟨_, after.load part rd f, ?_⟩
  rw [State.setX_advance_x hrd, toNat_add_within_word word hk]
  rfl

/-- Settles O24: the loads reach the bytes the store left, which are those of the stored word. -/
theorem loadsAfterAStoreReturnItsParts : Obligations.LoadsAfterAStoreReturnItsParts := by
  intro s rs1 rs2 imm ea address word plain wf
  refine ⟨(s.stored ea.toNat .word (s.x rs2)).advance, ?stores, fun rd rb j k hrd hk part => ?loads⟩
  case stores =>
    rw [exec_sw, ← address]
    exact plain.store ((aligned_word_iff ea).2 word) _
  case loads =>
    have place := toNat_add_within_word word hk
    refine ⟨?byte, fun even => ?half, fun start => ?word⟩
    case byte =>
      obtain ⟨u, runs, value⟩ := plain.load_after_store word (w := .byte) hk hk rfl hrd (s.x rs2) id
      rw [exec_lbu, part]
      refine ⟨u, runs, ?_⟩
      rw [value]
      exact load_byte_of_stored_word wf _ _ hk
    case half =>
      have halves : k + 1 < 4 := by omega
      have even : aligned (ea + BitVec.ofNat 32 k) .half = true := (aligned_half_iff _).2 (by omega)
      obtain ⟨u, runs, value⟩ := plain.load_after_store word (w := .half) hk halves even hrd (s.x rs2) id
      rw [exec_lhu, part]
      refine ⟨u, runs, ?_⟩
      rw [value]
      exact load_half_of_stored_word wf _ _ halves
    case word =>
      subst start
      have whole : aligned (ea + BitVec.ofNat 32 0) .word = true := (aligned_word_iff _).2 (by omega)
      obtain ⟨u, runs, value⟩ := plain.load_after_store word (w := .word) hk (Nat.le_refl _) whole hrd (s.x rs2) id
      rw [exec_lw, part]
      exact ⟨u, runs, value.trans (wordAt_store _ _ _ wf)⟩

theorem reservedAt_iff (s : State) (pa : PAddr) : s.reservedAt pa = true ↔ s.reservation = ⟨true, pa.setWidth 32⟩ := by
  cases held : s.reservation with
  | mk valid addr => simp [State.reservedAt, held]

/-- Settles O34: LR.W reserves the address that SC.W tests, and the first SC.W gives the reservation up. -/
theorem pairedStoreConditionalSucceeds : Obligations.PairedStoreConditionalSucceeds := by
  intro s rd rs1 rb rv re rc rf rg aq rl aq' rl' offset plain wf
  have word := (aligned_word_iff _).2 offset
  refine ⟨_, loadReserved_of_reaches word (plain.reaches .load) rd, fun sameWord => ?_⟩
  generalize ht : State.advance _ = t at sameWord
  have plainT : plainRam t (s.x rs1) 4 := plain.of_same (by subst ht; exact ⟨rfl, rfl, rfl⟩)
  have reserved : t.reservedAt ((s.x rs1).setWidth 34) = true := by
    rw [reservedAt_iff]; subst ht; rfl
  have wfT : Memory.wf t.mem := by subst ht; exact wf
  rw [exec_scW, sameWord]
  refine ⟨_, storeConditional_of_reserved word (plainT.reaches .store) reserved re _, ?status, ?stored, ?second⟩
  case status => exact (State.setX_becomes _ re 0#32).1.trans (ite_self _)
  case stored =>
    rw [toNat_word_setWidth_paddr]
    exact wordAt_store _ _ _ wfT
  case second =>
    intro sameAgain hrg
    generalize hu : State.advance _ = u at sameAgain ⊢
    have plainU : plainRam u (s.x rs1) 4 := plainT.of_same (by subst hu; exact ⟨rfl, rfl, rfl⟩)
    have given : u.reservedAt ((s.x rs1).setWidth 34) = false := by subst hu; rfl
    obtain ⟨translated, answered⟩ := plainU.reaches .store
    have permitted : physAccessOk u.config ((s.x rs1).setWidth 34) 4 .store = true := by simp [physAccessOk, answered]
    rw [exec_scW, sameAgain]
    exact ⟨_, storeConditional_of_unreserved word translated permitted given rg _, State.setX_advance_x hrg _ _, rfl⟩

end Sys2Proof.Machine
end

section
/-! PROOFS. The page-table walk level by level, and a translation in the terms of the walk and of the cached entries
(20_memory.md R130 to R140, R162). -/

namespace Sys2Proof.Machine

/-! ### The addresses of the entries -/

theorem pteAddress_pageBase (ppn : BitVec 22) (va : Word) (i : Nat) :
    pteAddress (pageBase ppn) va i = BitVec.ofNat 34 (ppn.toNat * 4096 + (vpnIndex va i).toNat * 4) := by
  have hp := ppn.isLt
  have hv := (vpnIndex va i).isLt
  apply BitVec.eq_of_toNat_eq
  rw [pteAddress, pageBase, BitVec.toNat_add, BitVec.toNat_setWidth_of_le (by decide), BitVec.toNat_append,
    BitVec.toNat_append, BitVec.toNat_ofNat, BitVec.toNat_ofNat, BitVec.toNat_ofNat, Nat.or_zero, Nat.or_zero,
    Nat.shiftLeft_eq, Nat.shiftLeft_eq]

theorem rootEntryAddress (s : State) (va : Word) :
    pteAddress (pageBase (s.satp.extractLsb' 0 22)) va 1 =
      BitVec.ofNat 34 (s.satp.toNat % 2 ^ 22 * 4096 + va.toNat / 2 ^ 22 * 4) := by
  have index : (vpnIndex va 1).toNat = va.toNat / 2 ^ 22 := by
    have := va.isLt
    rw [vpnIndex, if_neg (by decide), BitVec.extractLsb'_toNat, Nat.shiftRight_eq_div_pow]
    omega
  rw [pteAddress_pageBase, index, BitVec.extractLsb'_toNat, Nat.shiftRight_zero]

theorem nextEntryAddress (pte va : Word) :
    pteAddress (pageBase (pte.extractLsb' 10 22)) va 0 =
      BitVec.ofNat 34 (pte.toNat / 2 ^ 10 * 4096 + va.toNat / 2 ^ 12 % 2 ^ 10 * 4) := by
  have table : (pte.extractLsb' 10 22).toNat = pte.toNat / 2 ^ 10 := by
    have := pte.isLt
    rw [BitVec.extractLsb'_toNat, Nat.shiftRight_eq_div_pow]
    omega
  rw [pteAddress_pageBase, table, vpnIndex, if_pos rfl, BitVec.extractLsb'_toNat, Nat.shiftRight_eq_div_pow]

/-! ### One level of the walk -/

theorem pteInvalid_iff (pte : Word) : pteInvalid pte = true ↔ entryFaults pte := by
  simp only [pteInvalid, pteV, pteW, pteR, Bool.or_eq_true, Bool.and_eq_true, Bool.not_eq_true', and_comm]

theorem pteLeaf_iff (pte : Word) : pteLeaf pte = true ↔ entryEnds pte := by
  simp only [pteLeaf, pteR, pteX, Bool.or_eq_true]

section
variable {s : State} {va : Word} {i : Nat} {a : PAddr}

theorem walkFrom_unreadable (h : physAccessOk s.config (pteAddress a va i) 4 .load = false) :
    walkFrom s va (i + 1) a = .accessFault := by
  rw [physAccessOk_eq_false_iff] at h
  simp only [walkFrom, h]

/-- What a level of the walk does with an entry in memory (20_memory.md R134). -/
theorem walkFrom_memory {pte : Word} (h : physTarget s.config (pteAddress a va i) 4 .load = some .memory)
    (entry : pte = wordAt s.mem (pteAddress a va i).toNat) :
    walkFrom s va (i + 1) a =
      if entryFaults pte then .pageFault
      else if entryEnds pte then .leaf pte (pteAddress a va i) (if i = 0 then .page else .megapage)
      else walkFrom s va i (pageBase (pte.extractLsb' 10 22)) := by
  simp only [walkFrom, h, physRead, ← wordAt_eq_load, ← entry, pteInvalid_iff, pteLeaf_iff]

end

/-- Settles O36: the walk is two levels, each of which faults, ends in its entry, or goes on to the table it names. -/
theorem theWalkReadsTwoLevels : Obligations.TheWalkReadsTwoLevels := by
  rintro s va a1 rfl
  rw [← rootEntryAddress]
  refine ⟨walkFrom_unreadable, fun pte1 answered1 entry1 => ?_⟩
  have level1 : walk s va = _ := walkFrom_memory answered1 entry1
  refine ⟨fun faults => by rw [level1, if_pos faults], fun valid ends => ?_, fun valid points a0 address0 => ?_⟩
  · rw [level1, if_neg valid, if_pos ends]; rfl
  rw [← nextEntryAddress] at address0
  subst address0
  rw [if_neg valid, if_neg points] at level1
  rw [level1]
  refine ⟨walkFrom_unreadable, fun pte0 answered0 entry0 => ?_⟩
  rw [walkFrom_memory answered0 entry0]
  refine ⟨fun faults => if_pos faults, fun valid ends => ?_, fun valid points => ?_⟩
  · rw [if_neg valid, if_pos ends]; rfl
  · rw [if_neg valid, if_neg points]; rfl

/-! ### A translation by a walk -/

theorem updatedPte_eq (pte : Word) (k : AccessKind) :
    updatedPte pte k = pte ||| (if k = .store then 0xC0#32 else 0x40#32) := by
  rw [updatedPte, BitVec.or_assoc]
  cases k <;> rfl

section
variable {s : State} {va : Word} {k : AccessKind} (n : Nat)

theorem translateByWalk_of_pageFault (h : walk s va = .pageFault) :
    translateByWalk s va k n = .raise (pageFaultOf k) s := by
  simp only [translateByWalk, h]

theorem translateByWalk_of_accessFault (h : walk s va = .accessFault) :
    translateByWalk s va k n = .raise (accessFaultOf k) s := by
  simp only [translateByWalk, h]

variable {pte : Word} {a : PAddr} {l : Level} (leaf : walk s va = .leaf pte a l)
include leaf

theorem translateByWalk_of_forbidden (h : ¬ leafPermits s.priv s.mstatus k pte l) :
    translateByWalk s va k n = .raise (pageFaultOf k) s := by
  rw [← leafAllows_iff, Bool.not_eq_true] at h
  simp [translateByWalk, leaf, h]

variable (permits : leafPermits s.priv s.mstatus k pte l)
include permits

theorem translateByWalk_of_upToDate (h : ¬ entryNeedsUpdate k pte) :
    translateByWalk s va k n = .done (leafAddress pte va l) (s.fillTlb k va pte l n) := by
  rw [← leafAllows_iff] at permits
  rw [← needsUpdate_iff, Bool.not_eq_true] at h
  simp [translateByWalk, leaf, permits, h]

variable (update : entryNeedsUpdate k pte)
include update

theorem translateByWalk_of_unwritable (h : physAccessOk s.config a 4 .store = false) :
    translateByWalk s va k n = .raise (accessFaultOf k) s := by
  rw [← leafAllows_iff] at permits
  rw [← needsUpdate_iff] at update
  rw [physAccessOk_eq_false_iff] at h
  simp [translateByWalk, leaf, permits, update, h]

theorem translateByWalk_of_update {g : Target} {t : State} (h : physTarget s.config a 4 .store = some g)
    (written : physWrite s g a .word (updatedPte pte k) = some t) :
    translateByWalk s va k n = .done (leafAddress pte va l) (t.fillTlb k va (updatedPte pte k) l n) := by
  rw [← leafAllows_iff] at permits
  rw [← needsUpdate_iff] at update
  simp [translateByWalk, leaf, permits, update, h, written]

end

/-! ### What the cached translations play no part in -/

section
variable {s t : State} (h : CacheTrace s t)
include h

theorem CacheTrace.priv_eq : t.priv = s.priv := by unfold CacheTrace at h; rw [h]
theorem CacheTrace.mstatus_eq : t.mstatus = s.mstatus := by unfold CacheTrace at h; rw [h]
theorem CacheTrace.config_eq : t.config = s.config := by unfold CacheTrace at h; rw [h]

/-- A physical write commutes with a change of the cached translations. -/
theorem CacheTrace.physWrite_some {g : Target} {pa : PAddr} {w : Width} {v : Word} {t' : State}
    (written : physWrite t g pa w v = some t') : ∃ s', physWrite s g pa w v = some s' ∧ CacheTrace s' t' := by
  unfold CacheTrace at h
  rw [h] at written
  cases g with
  | memory => cases written; exact ⟨_, rfl, rfl⟩
  | clint r => cases r <;> (cases written; exact ⟨_, rfl, rfl⟩)
  | device => cases written

/-- A translation by a walk completes with a leaf that permits the access, and has at most set A or D in it. -/
theorem translateByWalk_from_leaf {va : Word} {k : AccessKind} {n : Nat} {pa : PAddr} {u : State}
    (done : translateByWalk t va k n = .done pa u) :
    ∃ pte a l, walk s va = .leaf pte a l ∧ leafPermits s.priv s.mstatus k pte l ∧ pa = leafAddress pte va l ∧
      (CacheTrace s u ∨ (entryNeedsUpdate k pte ∧ ∃ g w, physTarget s.config a 4 .store = some g ∧
        physWrite s g a .word (pte ||| (if k = .store then 0xC0#32 else 0x40#32)) = some w ∧
        CacheTrace w u)) := by
  obtain ⟨pte, a, l, leaf, permits, address, last⟩ := translateByWalk_done done
  rw [walk_of_cacheTrace h] at leaf
  rw [leafAllows_iff, h.priv_eq, h.mstatus_eq] at permits
  refine ⟨pte, a, l, leaf, permits, address, ?_⟩
  obtain ⟨-, rfl⟩ | ⟨update, g, t', answered, written, rfl⟩ := last
  · exact .inl (h.trans (State.fillTlb_cacheTrace ..))
  · rw [h.config_eq] at answered
    rw [updatedPte_eq] at written
    obtain ⟨w, written, same⟩ := h.physWrite_some written
    exact .inr ⟨(needsUpdate_iff k pte).1 update, g, w, answered, written,
      same.trans (State.fillTlb_cacheTrace ..)⟩

theorem translateByWalk_trace {va : Word} {k : AccessKind} {n : Nat} {pa : PAddr} {u : State}
    (done : translateByWalk t va k n = .done pa u) : TranslationTrace s va k u := by
  obtain ⟨pte, a, l, leaf, permits, -, same | ⟨stale, g, w, answered, written, same⟩⟩ :=
    translateByWalk_from_leaf h done
  · exact .inl same
  · exact .inr ⟨pte, a, l, g, w, leaf, permits, stale, answered, written, same⟩

end

theorem translate_on {s : State} (h : s.translates = true) (va : Word) (k : AccessKind) :
    translate s va k = translateSv32 s va k := if_pos h

theorem translates_iff (s : State) : s.translates = true ↔ s.priv ≠ .M ∧ sv32Selected s.config s.satp = true := by
  simp [State.translates]

/-- With no cached entry to use, a translation is the walk; at most dropped entries and a draw lie before it. -/
theorem translate_uncached {s : State} {va : Word} {k : AccessKind} (on : s.translates = true)
    (uncached : s.tlbCandidates va k = []) :
    ∃ s1 n, CacheTrace s s1 ∧ translate s va k = translateByWalk s1 va k n := by
  rw [translate_on on]
  obtain ⟨s1, cached, ⟨n, walks⟩ | ⟨-, some⟩ | ⟨e, he, -⟩⟩ := translateSv32_cases s va k
  · exact ⟨s1, n, cached, walks⟩
  · exact absurd uncached some
  · rw [uncached] at he; cases he

/-- Settles O38: the cases of a translation by a walk, in a state that differs in cached translations alone. -/
theorem uncachedTranslationsAreTheWalk : Obligations.UncachedTranslationsAreTheWalk := by
  intro s va k on uncached wf
  obtain ⟨s1, n, cached, walks⟩ := translate_uncached on uncached
  rw [walks, ← walk_of_cacheTrace cached, ← cached.priv_eq, ← cached.mstatus_eq, ← cached.config_eq]
  refine ⟨fun fault => ?pageFault, fun fault => ?accessFault, fun pte a l leaf =>
    ⟨fun forbidden => ?forbidden, fun permits fresh => ?upToDate, fun permits stale => ⟨fun refused => ?unwritable,
      fun answered => ?update⟩⟩⟩
  case pageFault => exact ⟨_, s1, translateByWalk_of_pageFault n fault, pageFaultOf_code k, cached⟩
  case accessFault => exact ⟨_, s1, translateByWalk_of_accessFault n fault, accessFaultOf_code k, cached⟩
  case forbidden => exact ⟨_, s1, translateByWalk_of_forbidden n leaf forbidden, pageFaultOf_code k, cached⟩
  case upToDate =>
    exact ⟨_, translateByWalk_of_upToDate n leaf permits fresh, cached.trans (State.fillTlb_cacheTrace ..)⟩
  case unwritable =>
    exact ⟨_, s1, translateByWalk_of_unwritable n leaf permits stale refused, accessFaultOf_code k, cached⟩
  case update =>
    have done := translateByWalk_of_update n leaf permits stale answered rfl
    refine ⟨_, done, translateByWalk_trace cached done, bytesBecome_of_store (w := .word) wf ?_⟩
    rw [← updatedPte_eq, ← cached.mem_eq]
    rfl

/-- Settles O39: a translation is the identity, uses a cached entry, or walks; each leaves its trace. -/
theorem translationsComeFromAnEntryOrTheWalk : Obligations.TranslationsComeFromAnEntryOrTheWalk := by
  intro s va k
  refine ⟨fun bare => ?identity, fun below paged => ?translated⟩
  case identity =>
    refine translate_off (Bool.eq_false_iff.2 fun on => ?_) va k
    obtain ⟨below, paged⟩ := (translates_iff s).1 on
    exact bare.elim below fun off => by simp [off] at paged
  case translated =>
    rw [translate_on ((translates_iff s).2 ⟨below, paged⟩)]
    obtain ⟨s1, cached, ⟨n, walks⟩ | ⟨faults, -⟩ | ⟨entry, candidate, permits, fresh, hits⟩⟩ :=
      translateSv32_cases s va k
    · rw [walks]
      refine ⟨fun pa u done => ⟨translateByWalk_trace cached done, .inr ?_⟩, fun e u raises => ?_⟩
      · obtain ⟨pte, a, l, leaf, permits, address, last⟩ := translateByWalk_from_leaf cached done
        refine ⟨pte, a, l, leaf, permits, address, last.imp_right ?_⟩
        rintro ⟨stale, g, w, answered, written, same⟩
        refine ⟨stale, fun inMemory => ?_⟩
        obtain rfl : g = .memory := by simpa [answered] using inMemory
        rw [same.mem_eq, physWrite_memory written]
      · obtain ⟨rfl | rfl, rfl⟩ := translateByWalk_raise raises
        · exact ⟨cached, .inl (pageFaultOf_code k)⟩
        · exact ⟨cached, .inr (accessFaultOf_code k)⟩
    · rw [faults]
      refine ⟨fun pa u done => (by cases done), fun e u raises => ?_⟩
      cases raises
      exact ⟨cached, .inl (pageFaultOf_code k)⟩
    · rw [hits]
      refine ⟨fun pa u done => ?_, fun e u raises => (by cases raises)⟩
      cases done
      rw [leafAllows_iff] at permits
      rw [← Bool.not_eq_true, needsUpdate_iff] at fresh
      exact ⟨.inl cached, .inl ⟨entry, candidate, permits, fresh, rfl, cached⟩⟩

end Sys2Proof.Machine
end

section
/-! PROOFS. The opcode table read from word to instruction: no word is in two rows, and a word decodes to what its row
builds or, in no row, to nothing (30_encoding.md R192 to R194). -/

namespace Sys2Proof

/-! ### A word is in one row at most -/

/-- Two rows disagree on a bit that both masks keep. -/
theorem opcodeTable_apart :
    opcodeTable.Pairwise fun r q => r.pat &&& (r.mask &&& q.mask) ≠ q.pat &&& (r.mask &&& q.mask) := by
  decide

theorem pat_and_of_masked {w mask pat : Word} (h : w &&& mask = pat) (m : Word) :
    pat &&& (mask &&& m) = w &&& (mask &&& m) := by
  rw [← h, BitVec.and_assoc, ← BitVec.and_assoc mask, BitVec.and_self]

theorem pats_agree {r q : OpcodeRow} {w : Word} (hr : w &&& r.mask = r.pat) (hq : w &&& q.mask = q.pat) :
    r.pat &&& (r.mask &&& q.mask) = q.pat &&& (r.mask &&& q.mask) := by
  rw [pat_and_of_masked hr, BitVec.and_comm r.mask, pat_and_of_masked hq]

theorem place_unique {j k : Nat} {r q : OpcodeRow} {w : Word} (hj : opcodeTable[j]? = some r)
    (hk : opcodeTable[k]? = some q) (hr : w &&& r.mask = r.pat) (hq : w &&& q.mask = q.pat) : j = k := by
  obtain ⟨inj, rfl⟩ := List.getElem?_eq_some_iff.1 hj
  obtain ⟨ink, rfl⟩ := List.getElem?_eq_some_iff.1 hk
  have apart := List.pairwise_iff_getElem.1 opcodeTable_apart
  obtain below | same | above := Nat.lt_trichotomy j k
  · exact absurd (pats_agree hr hq) (apart j k inj ink below)
  · exact same
  · exact absurd (pats_agree hq hr) (apart k j ink inj above)

theorem row_unique {r q : OpcodeRow} {w : Word} (memr : r ∈ opcodeTable) (memq : q ∈ opcodeTable)
    (hr : w &&& r.mask = r.pat) (hq : w &&& q.mask = q.pat) : r = q := by
  obtain ⟨j, hj⟩ := List.getElem?_of_mem memr
  obtain ⟨k, hk⟩ := List.getElem?_of_mem memq
  obtain rfl := place_unique hj hk hr hq
  exact Option.some.inj (hj.symm.trans hk)

/-! ### What a word decodes to -/

theorem OpcodeRow.accepts_iff (r : OpcodeRow) (w : Word) : r.accepts w = true ↔ w &&& r.mask = r.pat := beq_iff_eq

theorem decodeWord_eq_none_iff (w : Word) : decodeWord w = none ↔ ∀ r ∈ opcodeTable, w &&& r.mask ≠ r.pat := by
  simp [decodeWord, OpcodeRow.accepts_iff]

theorem row_of_decodeWord {w : Word} {i : Instr} (h : decodeWord w = some i) :
    ∃ r ∈ opcodeTable, w &&& r.mask = r.pat ∧ r.build w = i := by
  obtain ⟨r, found, built⟩ := Option.map_eq_some_iff.1 h
  have accepted : r.accepts w = true := List.find?_some (p := fun q : OpcodeRow => q.accepts w) found
  exact ⟨r, List.mem_of_find?_eq_some found, (r.accepts_iff w).1 accepted, built⟩

theorem decodeWord_of_row {r : OpcodeRow} {w : Word} (mem : r ∈ opcodeTable) (hr : w &&& r.mask = r.pat) :
    decodeWord w = some (r.build w) := by
  cases decoded : decodeWord w with
  | none => exact absurd hr ((decodeWord_eq_none_iff w).1 decoded r mem)
  | some i =>
    obtain ⟨q, memq, hq, rfl⟩ := row_of_decodeWord decoded
    rw [row_unique mem memq hr hq]

/-- Settles O3: a word in a row decodes by that row, whose place no other row shares. -/
theorem everyWordMatchesAtMostOneRow : Obligations.EveryWordMatchesAtMostOneRow := by
  intro w
  refine ⟨fun r mem hr => decodeWord_of_row mem hr, fun j k r q hj hk hr hq => place_unique hj hk hr hq,
    fun unmatched => ?_⟩
  have undecoded := (decodeWord_eq_none_iff w).2 unmatched
  exact ⟨undecoded, Machine.executeWord_of_undecoded undecoded⟩

/-- Settles O4: each word is looked up in the table. -/
theorem wordsOfTheExamplesDecode : Obligations.WordsOfTheExamplesDecode := by
  unfold Obligations.WordsOfTheExamplesDecode
  and_intros <;> decide

/-- Settles O6: the word decodes to nothing, and `raiseIllegal` is the trap of code 2 at `pc`. -/
theorem wordsOfNoRowAreIllegal : Obligations.WordsOfNoRowAreIllegal := by
  intro w s unmatched
  exact Machine.executeWord_of_undecoded ((decodeWord_eq_none_iff w).2 unmatched) s

end Sys2Proof
end

section
/-! PROOFS. Encoding and decoding undo each other: the row an instruction is encoded by builds it back, and the bits a
row fixes together with the fields it reads are the whole word (30_encoding.md R181 to R193). -/

/-! ### Each instruction is encoded by a row -/

namespace Sys2Proof.Laws.EncodedRow

/-- One lemma of the layer per constructor. -/
theorem statement : ∀ i : Instr, Statement i
  | .lui rd imm20 => lui rd imm20
  | .auipc rd imm20 => auipc rd imm20
  | .addi rd rs1 imm => addi rd rs1 imm
  | .slti rd rs1 imm => slti rd rs1 imm
  | .sltiu rd rs1 imm => sltiu rd rs1 imm
  | .xori rd rs1 imm => xori rd rs1 imm
  | .ori rd rs1 imm => ori rd rs1 imm
  | .andi rd rs1 imm => andi rd rs1 imm
  | .slli rd rs1 shamt => slli rd rs1 shamt
  | .srli rd rs1 shamt => srli rd rs1 shamt
  | .srai rd rs1 shamt => srai rd rs1 shamt
  | .add rd rs1 rs2 => add rd rs1 rs2
  | .sub rd rs1 rs2 => sub rd rs1 rs2
  | .sll rd rs1 rs2 => sll rd rs1 rs2
  | .slt rd rs1 rs2 => slt rd rs1 rs2
  | .sltu rd rs1 rs2 => sltu rd rs1 rs2
  | .xor rd rs1 rs2 => xor rd rs1 rs2
  | .srl rd rs1 rs2 => srl rd rs1 rs2
  | .sra rd rs1 rs2 => sra rd rs1 rs2
  | .or rd rs1 rs2 => or rd rs1 rs2
  | .and rd rs1 rs2 => and rd rs1 rs2
  | .jal rd offset => jal rd offset
  | .jalr rd rs1 imm => jalr rd rs1 imm
  | .beq rs1 rs2 offset => beq rs1 rs2 offset
  | .bne rs1 rs2 offset => bne rs1 rs2 offset
  | .blt rs1 rs2 offset => blt rs1 rs2 offset
  | .bge rs1 rs2 offset => bge rs1 rs2 offset
  | .bltu rs1 rs2 offset => bltu rs1 rs2 offset
  | .bgeu rs1 rs2 offset => bgeu rs1 rs2 offset
  | .lb rd rs1 imm => lb rd rs1 imm
  | .lh rd rs1 imm => lh rd rs1 imm
  | .lw rd rs1 imm => lw rd rs1 imm
  | .lbu rd rs1 imm => lbu rd rs1 imm
  | .lhu rd rs1 imm => lhu rd rs1 imm
  | .sb rs1 rs2 imm => sb rs1 rs2 imm
  | .sh rs1 rs2 imm => sh rs1 rs2 imm
  | .sw rs1 rs2 imm => sw rs1 rs2 imm
  | .fence fm pred succ rs1 rd => fence fm pred succ rs1 rd
  | .mul rd rs1 rs2 => mul rd rs1 rs2
  | .mulh rd rs1 rs2 => mulh rd rs1 rs2
  | .mulhsu rd rs1 rs2 => mulhsu rd rs1 rs2
  | .mulhu rd rs1 rs2 => mulhu rd rs1 rs2
  | .div rd rs1 rs2 => div rd rs1 rs2
  | .divu rd rs1 rs2 => divu rd rs1 rs2
  | .rem rd rs1 rs2 => rem rd rs1 rs2
  | .remu rd rs1 rs2 => remu rd rs1 rs2
  | .lrW rd rs1 aq rl => lrW rd rs1 aq rl
  | .scW rd rs1 rs2 aq rl => scW rd rs1 rs2 aq rl
  | .amoswapW rd rs1 rs2 aq rl => amoswapW rd rs1 rs2 aq rl
  | .amoaddW rd rs1 rs2 aq rl => amoaddW rd rs1 rs2 aq rl
  | .amoxorW rd rs1 rs2 aq rl => amoxorW rd rs1 rs2 aq rl
  | .amoandW rd rs1 rs2 aq rl => amoandW rd rs1 rs2 aq rl
  | .amoorW rd rs1 rs2 aq rl => amoorW rd rs1 rs2 aq rl
  | .amominW rd rs1 rs2 aq rl => amominW rd rs1 rs2 aq rl
  | .amomaxW rd rs1 rs2 aq rl => amomaxW rd rs1 rs2 aq rl
  | .amominuW rd rs1 rs2 aq rl => amominuW rd rs1 rs2 aq rl
  | .amomaxuW rd rs1 rs2 aq rl => amomaxuW rd rs1 rs2 aq rl
  | .csrrw rd csr rs1 => csrrw rd csr rs1
  | .csrrs rd csr rs1 => csrrs rd csr rs1
  | .csrrc rd csr rs1 => csrrc rd csr rs1
  | .csrrwi rd csr uimm => csrrwi rd csr uimm
  | .csrrsi rd csr uimm => csrrsi rd csr uimm
  | .csrrci rd csr uimm => csrrci rd csr uimm
  | .ecall => ecall
  | .ebreak => ebreak
  | .sret => sret
  | .mret => mret
  | .wfi => wfi
  | .sfenceVma rs1 rs2 => sfenceVma rs1 rs2

end Sys2Proof.Laws.EncodedRow

namespace Sys2Proof

/-- Settles O1: the row that encodes the instruction accepts the word, so the word decodes by it. -/
theorem decodeOfEncodeReturnsInstruction : Obligations.DecodeOfEncodeReturnsInstruction := by
  intro i wf
  obtain ⟨r, mem, accepted, built⟩ := Laws.EncodedRow.statement i wf
  rw [decodeWord_of_row mem ((r.accepts_iff _).1 accepted), built]

/-! ### Each row drops no bit -/

/-- What the row builds from a word of the row is an instruction that the word encodes. -/
def OpcodeRow.Lossless (r : OpcodeRow) : Prop :=
  ∀ w, w &&& r.mask = r.pat → (r.build w).wellFormed = true ∧ encode (r.build w) = w

/-- A field that the mask keeps whole is the row's own. -/
theorem extractLsb'_of_masked {w mask pat : Word} (h : w &&& mask = pat) (start len : Nat)
    (kept : mask.extractLsb' start len = BitVec.allOnes len) :
    pat.extractLsb' start len = w.extractLsb' start len := by
  rw [← h, BitVec.extractLsb'_and, kept, BitVec.and_allOnes]

namespace OpcodeRow.Lossless

section
variable {pat : Word} {build : Word → Instr}

/-! One lemma per mask and format. Its hypothesis says that the row builds an instruction of the format from the fields
it reads and the bits it fixes, which holds of a row of the table by unfolding. -/

theorem of_R (hb : ∀ w, (build w).wellFormed = true ∧
      encode (build w) = encodeR (pat.extractLsb' 25 7) (rs2Of w) (rs1Of w) (pat.extractLsb' 12 3) (rdOf w)
        (pat.extractLsb' 0 7)) : Lossless ⟨pat, 0xfe00707f#32, build⟩ := by
  refine fun w (h : w &&& 0xfe00707f#32 = pat) => ⟨(hb w).1, ?_⟩
  rw [(hb w).2, extractLsb'_of_masked h 25 7 (by decide), extractLsb'_of_masked h 12 3 (by decide),
    extractLsb'_of_masked h 0 7 (by decide), encodeR_of_fields]

theorem of_I (hb : ∀ w, (build w).wellFormed = true ∧
      encode (build w) = encodeI (immIOf w) (rs1Of w) (pat.extractLsb' 12 3) (rdOf w)
        (pat.extractLsb' 0 7)) : Lossless ⟨pat, 0x0000707f#32, build⟩ := by
  refine fun w (h : w &&& 0x0000707f#32 = pat) => ⟨(hb w).1, ?_⟩
  rw [(hb w).2, extractLsb'_of_masked h 12 3 (by decide), extractLsb'_of_masked h 0 7 (by decide), encodeI_of_fields]

theorem of_S (hb : ∀ w, (build w).wellFormed = true ∧
      encode (build w) = encodeS (immSOf w) (rs2Of w) (rs1Of w) (pat.extractLsb' 12 3)
        (pat.extractLsb' 0 7)) : Lossless ⟨pat, 0x0000707f#32, build⟩ := by
  refine fun w (h : w &&& 0x0000707f#32 = pat) => ⟨(hb w).1, ?_⟩
  rw [(hb w).2, extractLsb'_of_masked h 12 3 (by decide), extractLsb'_of_masked h 0 7 (by decide), encodeS_of_fields]

theorem of_B (hb : ∀ w, (build w).wellFormed = evenOffsetB (offsetBOf w) ∧
      encode (build w) = encodeB (offsetBOf w) (rs2Of w) (rs1Of w) (pat.extractLsb' 12 3)
        (pat.extractLsb' 0 7)) : Lossless ⟨pat, 0x0000707f#32, build⟩ := by
  refine fun w (h : w &&& 0x0000707f#32 = pat) => ⟨(hb w).1.trans (offsetBOf_even w), ?_⟩
  rw [(hb w).2, extractLsb'_of_masked h 12 3 (by decide), extractLsb'_of_masked h 0 7 (by decide), encodeB_of_fields]

theorem of_U (hb : ∀ w, (build w).wellFormed = true ∧
      encode (build w) = encodeU (immUOf w) (rdOf w) (pat.extractLsb' 0 7)) :
    Lossless ⟨pat, 0x0000007f#32, build⟩ := by
  refine fun w (h : w &&& 0x0000007f#32 = pat) => ⟨(hb w).1, ?_⟩
  rw [(hb w).2, extractLsb'_of_masked h 0 7 (by decide), encodeU_of_fields]

theorem of_J (hb : ∀ w, (build w).wellFormed = evenOffsetJ (offsetJOf w) ∧
      encode (build w) = encodeJ (offsetJOf w) (rdOf w) (pat.extractLsb' 0 7)) :
    Lossless ⟨pat, 0x0000007f#32, build⟩ := by
  refine fun w (h : w &&& 0x0000007f#32 = pat) => ⟨(hb w).1.trans (offsetJOf_even w), ?_⟩
  rw [(hb w).2, extractLsb'_of_masked h 0 7 (by decide), encodeJ_of_fields]

theorem of_amo (hb : ∀ w, (build w).wellFormed = true ∧
      encode (build w) = encodeAmo (pat.extractLsb' 27 5) (aqOf w) (rlOf w) (rs2Of w) (rs1Of w)
        (pat.extractLsb' 12 3) (rdOf w) (pat.extractLsb' 0 7)) :
    Lossless ⟨pat, 0xf800707f#32, build⟩ := by
  refine fun w (h : w &&& 0xf800707f#32 = pat) => ⟨(hb w).1, ?_⟩
  rw [(hb w).2, extractLsb'_of_masked h 27 5 (by decide), extractLsb'_of_masked h 12 3 (by decide),
    extractLsb'_of_masked h 0 7 (by decide), encodeAmo_of_fields]

/-- LR.W also fixes the `rs2` field. -/
theorem of_lr (hb : ∀ w, (build w).wellFormed = true ∧
      encode (build w) = encodeAmo (pat.extractLsb' 27 5) (aqOf w) (rlOf w) (pat.extractLsb' 20 5) (rs1Of w)
        (pat.extractLsb' 12 3) (rdOf w) (pat.extractLsb' 0 7)) :
    Lossless ⟨pat, 0xf9f0707f#32, build⟩ := by
  refine fun w (h : w &&& 0xf9f0707f#32 = pat) => ⟨(hb w).1, ?_⟩
  have rs2 : pat.extractLsb' 20 5 = rs2Of w := extractLsb'_of_masked h 20 5 (by decide)
  rw [(hb w).2, rs2, extractLsb'_of_masked h 27 5 (by decide), extractLsb'_of_masked h 12 3 (by decide),
    extractLsb'_of_masked h 0 7 (by decide), encodeAmo_of_fields]

/-- SFENCE.VMA also fixes the `rd` field. -/
theorem of_sfence (hb : ∀ w, (build w).wellFormed = true ∧
      encode (build w) = encodeR (pat.extractLsb' 25 7) (rs2Of w) (rs1Of w) (pat.extractLsb' 12 3)
        (pat.extractLsb' 7 5) (pat.extractLsb' 0 7)) :
    Lossless ⟨pat, 0xfe007fff#32, build⟩ := by
  refine fun w (h : w &&& 0xfe007fff#32 = pat) => ⟨(hb w).1, ?_⟩
  have rd : pat.extractLsb' 7 5 = rdOf w := extractLsb'_of_masked h 7 5 (by decide)
  rw [(hb w).2, rd, extractLsb'_of_masked h 25 7 (by decide), extractLsb'_of_masked h 12 3 (by decide),
    extractLsb'_of_masked h 0 7 (by decide), encodeR_of_fields]

/-- The other rows of the SYSTEM opcode fix the whole word. -/
theorem of_word {i : Instr} (wf : i.wellFormed = true) (hb : encode i = pat) :
    Lossless ⟨pat, 0xffffffff#32, fun _ => i⟩ :=
  fun _ h => ⟨wf, hb.trans (h.symm.trans BitVec.and_allOnes)⟩

end

theorem of_rowsCompute : rowsCompute.Forall Lossless := by
  refine ⟨of_U ?_, of_U ?_, of_I ?_, of_I ?_, of_I ?_, of_I ?_, of_I ?_, of_I ?_, of_R ?_, of_R ?_, of_R ?_,
    of_R ?_, of_R ?_, of_R ?_, of_R ?_, of_R ?_, of_R ?_, of_R ?_, of_R ?_, of_R ?_, of_R ?_⟩ <;>
  exact fun _ => ⟨rfl, rfl⟩

theorem of_rowsControl : rowsControl.Forall Lossless := by
  refine ⟨of_J ?_, of_I ?_, of_B ?_, of_B ?_, of_B ?_, of_B ?_, of_B ?_, of_B ?_⟩ <;>
  exact fun _ => ⟨rfl, rfl⟩

theorem of_rowsLoadStore : rowsLoadStore.Forall Lossless := by
  refine ⟨of_I ?_, of_I ?_, of_I ?_, of_I ?_, of_I ?_, of_S ?_, of_S ?_, of_S ?_,
    of_I fun w => ⟨rfl, congrArg (encodeI · _ _ _ _) (fenceFields_append w)⟩⟩ <;>
  exact fun _ => ⟨rfl, rfl⟩

theorem of_rowsMulDiv : rowsMulDiv.Forall Lossless := by
  refine ⟨of_R ?_, of_R ?_, of_R ?_, of_R ?_, of_R ?_, of_R ?_, of_R ?_, of_R ?_⟩ <;>
  exact fun _ => ⟨rfl, rfl⟩

theorem of_rowsAtomic : rowsAtomic.Forall Lossless := by
  refine ⟨of_lr ?_, of_amo ?_, of_amo ?_, of_amo ?_, of_amo ?_, of_amo ?_, of_amo ?_, of_amo ?_, of_amo ?_,
    of_amo ?_, of_amo ?_⟩ <;>
  exact fun _ => ⟨rfl, rfl⟩

theorem of_rowsCsr : rowsCsr.Forall Lossless := by
  refine ⟨of_I ?_, of_I ?_, of_I ?_, of_I ?_, of_I ?_, of_I ?_⟩ <;>
  exact fun _ => ⟨rfl, rfl⟩

theorem of_rowsSystem : rowsSystem.Forall Lossless :=
  ⟨of_word rfl rfl, of_word rfl rfl, of_word rfl rfl, of_word rfl rfl, of_word rfl rfl, of_sfence fun _ => ⟨rfl, rfl⟩⟩

theorem of_mem_opcodeTable : ∀ r ∈ opcodeTable, r.Lossless := by
  simp only [opcodeTable, List.forall_mem_append, ← List.forall_iff_forall_mem]
  exact ⟨⟨⟨⟨⟨⟨of_rowsCompute, of_rowsControl⟩, of_rowsLoadStore⟩, of_rowsMulDiv⟩, of_rowsAtomic⟩, of_rowsCsr⟩,
    of_rowsSystem⟩

end OpcodeRow.Lossless

/-- Settles O2: the word is in a row, and every row is lossless. -/
theorem encodeOfDecodeReturnsWord : Obligations.EncodeOfDecodeReturnsWord := by
  intro w i decoded
  obtain ⟨r, mem, hr, rfl⟩ := row_of_decodeWord decoded
  exact OpcodeRow.Lossless.of_mem_opcodeTable r mem w hr

end Sys2Proof
end

section
/-! PROOFS. The immediates as numbers: the sign bits as a quotient of the signed word, the fields below as parts of the
unsigned one (30_encoding.md R183 to R187). -/

namespace Sys2Proof

open Machine

/-! ### Appended and extracted fields as numbers -/

theorem toInt_append_of_pos {n m : Nat} (pos : 0 < n) (x : BitVec n) (y : BitVec m) :
    (x ++ y).toInt = x.toInt * 2 ^ m + y.toNat := by
  rw [BitVec.toInt_append, if_neg (by simpa using pos.ne'), Int.mul_comm]

theorem toNat_field {n : Nat} (w : BitVec n) (start len : Nat) :
    (w.extractLsb' start len).toNat = w.toNat / 2 ^ start % 2 ^ len := by
  rw [BitVec.extractLsb'_toNat, Nat.shiftRight_eq_div_pow]

/-- The field that holds the sign bit is the signed quotient, rounded down. -/
theorem toInt_upperField {len k : Nat} (pos : 0 < len) (w : BitVec (len + k)) :
    (w.extractLsb' k len).toInt = w.toInt / 2 ^ k := by
  have parts : w.extractLsb' k len ++ w.extractLsb' 0 k = w := by
    ext i hi
    simp
  have low : ((w.extractLsb' 0 k).toNat : Int) < 2 ^ k := by exact_mod_cast (w.extractLsb' 0 k).isLt
  calc (w.extractLsb' k len).toInt
    _ = ((w.extractLsb' 0 k).toNat + (w.extractLsb' k len).toInt * 2 ^ k) / 2 ^ k := by
      rw [Int.add_mul_ediv_right _ _ (by positivity), Int.ediv_eq_zero_of_lt (by positivity) low, Int.zero_add]
    _ = w.toInt / 2 ^ k := by rw [Int.add_comm, ← toInt_append_of_pos pos, parts]

/-! ### The five immediates -/

theorem immI_toInt (w : Word) : (immI (immIOf w)).toInt = w.toInt / 2 ^ 20 := by
  rw [immI, BitVec.toInt_signExtend_of_le (by decide), immIOf, toInt_upperField (len := 12) (by decide)]

theorem immS_toInt (w : Word) :
    (immS (immSOf w)).toInt = w.toInt / 2 ^ 25 * 32 + (w.toNat / 2 ^ 7 % 32 : Nat) := by
  rw [immS, BitVec.toInt_signExtend_of_le (by decide), immSOf, toInt_append_of_pos (by decide),
    toInt_upperField (len := 7) (by decide), toNat_field]
  rfl

theorem immB_toInt (w : Word) :
    (immB (offsetBOf w)).toInt = w.toInt / 2 ^ 31 * 4096 +
      (w.toNat / 2 ^ 7 % 2 * 2048 + w.toNat / 2 ^ 25 % 64 * 32 + w.toNat / 2 ^ 8 % 16 * 2 : Nat) := by
  rw [immB, BitVec.toInt_signExtend_of_le (by decide), offsetBOf, toInt_append_of_pos (by decide),
    toInt_append_of_pos (by decide), toInt_append_of_pos (by decide), toInt_append_of_pos (by decide),
    toInt_upperField (len := 1) (by decide), toNat_field, toNat_field, toNat_field]
  simp only [BitVec.toNat_ofNat]
  omega

theorem immU_toNat (w : Word) : (immU (immUOf w)).toNat = w.toNat / 2 ^ 12 * 2 ^ 12 := by
  rw [immU, BitVec.toNat_append, immUOf, toNat_field, BitVec.toNat_ofNat, Nat.zero_mod, Nat.or_zero, Nat.shiftLeft_eq]
  omega

theorem immJ_toInt (w : Word) :
    (immJ (offsetJOf w)).toInt = w.toInt / 2 ^ 31 * 2 ^ 20 +
      (w.toNat / 2 ^ 12 % 256 * 2 ^ 12 + w.toNat / 2 ^ 20 % 2 * 2 ^ 11 + w.toNat / 2 ^ 21 % 1024 * 2 : Nat) := by
  rw [immJ, BitVec.toInt_signExtend_of_le (by decide), offsetJOf, toInt_append_of_pos (by decide),
    toInt_append_of_pos (by decide), toInt_append_of_pos (by decide), toInt_append_of_pos (by decide),
    toInt_upperField (len := 1) (by decide), toNat_field, toNat_field, toNat_field]
  simp only [BitVec.toNat_ofNat]
  omega

/-- Settles O5: each immediate as a number; its range is that of the signed word. -/
theorem immediatesAreTheWordsBits : Obligations.ImmediatesAreTheWordsBits := by
  intro w
  rw [immI_toInt, immS_toInt, immB_toInt, immU_toNat, immJ_toInt]
  have least : -2 ^ 31 ≤ w.toInt := w.le_toInt
  have most : w.toInt < 2 ^ 31 := w.toInt_lt
  refine ⟨⟨rfl, ?_, ?_⟩, ⟨rfl, ?_, ?_⟩, ⟨rfl, ?_, ?_, ?_⟩, ⟨rfl, ?_⟩, ⟨rfl, ?_, ?_, ?_⟩⟩ <;> omega

end Sys2Proof
end

section
/-! PROOFS. The integer computation instructions: what completing through `writeBack` leaves, and the values written as
exact numbers brought back to 32 bits (40_rv32i_compute.md R220 to R242). -/

namespace Sys2Proof.Machine

/-! ### Completing with a result -/

/-- An instruction that ends in `writeBack` computes what it writes back, and changes nothing else
(40_rv32i_compute.md R220). -/
theorem Computes.of_writeBack {i : Instr} {s : State} {rd : Reg} {u v : Word} (runs : exec i s = writeBack rd u s)
    (value : u = v) : Computes i s rd v := by
  subst value
  have retires : RetiresTo s (s.setX rd u).advance (s.pc + 4#32) := ⟨rfl, rfl, rfl⟩
  have memory : MemorySame s (s.setX rd u).advance := fun _ => rfl
  exact ⟨_, runs, s.setX_becomes rd u, retires, memory, rfl⟩

/-! ### The operands an instruction word or a register supplies -/

theorem immI_eq_ofInt (imm : BitVec 12) : immI imm = BitVec.ofInt 32 imm.toInt := rfl

theorem toNat_immU (imm20 : BitVec 20) : (immU imm20).toNat = imm20.toNat * 2 ^ 12 := by
  rw [immU, BitVec.toNat_append, BitVec.toNat_ofNat, Nat.zero_mod, Nat.or_zero, Nat.shiftLeft_eq]

theorem immU_eq_ofNat (imm20 : BitVec 20) : immU imm20 = BitVec.ofNat 32 (imm20.toNat * 2 ^ 12) := by
  rw [← toNat_immU, BitVec.ofNat_toNat, BitVec.setWidth_eq]

/-- A register supplies its low five bits as a shift amount (40_rv32i_compute.md R234). -/
theorem shiftAmount_eq_mod (v : Word) : shiftAmount v = v.toNat % 32 := by
  rw [shiftAmount, toNat_field, Nat.pow_zero, Nat.div_one]
  rfl

/-! ### The results as exact numbers -/

section
variable (a b : Word) (k : Nat)

theorem add_eq_ofNat : a + b = BitVec.ofNat 32 (a.toNat + b.toNat) := by
  rw [BitVec.ofNat_add, BitVec.ofNat_toNat, BitVec.ofNat_toNat, BitVec.setWidth_eq, BitVec.setWidth_eq]

theorem sub_eq_ofInt : a - b = BitVec.ofInt 32 (a.toInt - b.toInt) := by
  rw [Int.sub_eq_add_neg, BitVec.ofInt_add, BitVec.ofInt_neg, BitVec.ofInt_toInt, BitVec.ofInt_toInt,
    BitVec.sub_eq_add_neg]

theorem setLess_eq_ite : setLess a b = if a.toInt < b.toInt then 1#32 else 0#32 := by
  simp only [setLess, boolWord, BitVec.slt_iff_toInt_lt]

theorem setLessU_eq_ite : setLessU a b = if a.toNat < b.toNat then 1#32 else 0#32 := by
  simp only [setLessU, boolWord, BitVec.ult_iff_toNat_lt]

theorem shiftLeft_eq_ofNat : a <<< k = BitVec.ofNat 32 (a.toNat * 2 ^ k) := by
  rw [← Nat.shiftLeft_eq]
  rfl

theorem ushiftRight_eq_ofNat : a >>> k = BitVec.ofNat 32 (a.toNat / 2 ^ k) := by
  rw [← Nat.shiftRight_eq_div_pow, ← BitVec.toNat_ushiftRight, BitVec.ofNat_toNat, BitVec.setWidth_eq]

theorem sshiftRight_eq_ofInt : a.sshiftRight k = BitVec.ofInt 32 (a.toInt / 2 ^ k) := by
  rw [← BitVec.ofInt_toInt (x := a.sshiftRight k), BitVec.toInt_sshiftRight, Int.shiftRight_eq_div_pow, Nat.cast_pow,
    Nat.cast_ofNat]

end

/-! ### The instructions -/

/-- Settles O14: each instruction ends in `writeBack`, and the value it hands over is the number stated. -/
theorem immediateInstructionsCompute : Obligations.ImmediateInstructionsCompute := by
  intro s rd rs1 imm20 imm shamt
  have upperSum : s.pc + immU imm20 = BitVec.ofNat 32 (s.pc.toNat + imm20.toNat * 2 ^ 12) := by
    rw [add_eq_ofNat, toNat_immU]
  refine ⟨?lui, ?auipc, ?addi, ?slti, ?sltiu, ?xori, ?ori, ?andi, ?slli, ?srli, ?srai⟩
  case lui => exact .of_writeBack rfl (immU_eq_ofNat imm20)
  case auipc => exact .of_writeBack rfl upperSum
  case addi => exact .of_writeBack rfl (effectiveAddress_signExtend s rs1 imm)
  case slti =>
    have signed : (immI imm).toInt = imm.toInt := BitVec.toInt_signExtend_of_le (by decide)
    exact .of_writeBack rfl (signed ▸ setLess_eq_ite (s.x rs1) (immI imm))
  case sltiu => exact .of_writeBack rfl (setLessU_eq_ite (s.x rs1) (immI imm))
  case xori | ori | andi => exact .of_writeBack rfl (congrArg _ (immI_eq_ofInt imm))
  case slli => exact .of_writeBack rfl (shiftLeft_eq_ofNat (s.x rs1) shamt.toNat)
  case srli => exact .of_writeBack rfl (ushiftRight_eq_ofNat (s.x rs1) shamt.toNat)
  case srai => exact .of_writeBack rfl (sshiftRight_eq_ofInt (s.x rs1) shamt.toNat)

/-- Settles O15: as for the immediate forms, the second operand or the shift amount coming from `rs2`. -/
theorem registerInstructionsCompute : Obligations.RegisterInstructionsCompute := by
  rintro s rd rs1 rs2 a b rfl rfl
  have amount : shiftAmount (s.x rs2) = (s.x rs2).toNat % 32 := shiftAmount_eq_mod (s.x rs2)
  refine ⟨?add, ?sub, ?sll, ?slt, ?sltu, ?xor, ?srl, ?sra, ?or, ?and⟩
  case add => exact .of_writeBack rfl (add_eq_ofNat (s.x rs1) (s.x rs2))
  case sub => exact .of_writeBack rfl (sub_eq_ofInt (s.x rs1) (s.x rs2))
  case slt => exact .of_writeBack rfl (setLess_eq_ite (s.x rs1) (s.x rs2))
  case sltu => exact .of_writeBack rfl (setLessU_eq_ite (s.x rs1) (s.x rs2))
  case sll => exact .of_writeBack rfl (amount ▸ shiftLeft_eq_ofNat (s.x rs1) (shiftAmount (s.x rs2)))
  case srl => exact .of_writeBack rfl (amount ▸ ushiftRight_eq_ofNat (s.x rs1) (shiftAmount (s.x rs2)))
  case sra => exact .of_writeBack rfl (amount ▸ sshiftRight_eq_ofInt (s.x rs1) (shiftAmount (s.x rs2)))
  case xor | or | and => exact .of_writeBack rfl rfl

end Sys2Proof.Machine
end

section
/-! PROOFS. Jumps and branches: the targets as exact numbers brought back to 32 bits, what a transfer to an
aligned or to a misaligned target leaves, and each branch's condition (41_rv32i_control.md R250 to R259). -/

namespace Sys2Proof.Machine

/-! ### The targets as numbers -/

/-- A signed displacement from a word, modulo 2^32. -/
theorem add_signExtend_eq_ofInt {n : Nat} (base : Word) (offset : BitVec n) :
    base + offset.signExtend 32 = BitVec.ofInt 32 (base.toInt + offset.toInt) := by
  rw [BitVec.ofInt_add, BitVec.ofInt_toInt]
  rfl

/-- Clearing bit 0 rounds down to an even number. -/
theorem clearBit0_eq_ofNat (v : Word) : v &&& 0xFFFFFFFE#32 = BitVec.ofNat 32 (v.toNat / 2 * 2) := by
  have shifted : (v >>> 1) <<< 1 = v &&& 0xFFFFFFFE#32 := BitVec.shiftLeft_ushiftRight
  rw [← shifted, shiftLeft_eq_ofNat, BitVec.toNat_ushiftRight, Nat.shiftRight_eq_div_pow, Nat.pow_one]

theorem toInt_emod_two {n : Nat} (pos : 0 < n) (v : BitVec n) : v.toInt % 2 = (v.toNat % 2 : Nat) := by
  obtain ⟨m, rfl⟩ := Nat.exists_eq_add_one.2 pos
  rw [BitVec.toInt_eq_toNat_cond, pow_succ]
  split <;> push_cast <;> omega

/-- An even displacement from an even word leads to an even word. -/
theorem even_target {n : Nat} (pos : 0 < n) {base : Word} {offset : BitVec n} (evenBase : base.toNat % 2 = 0)
    (evenOffset : offset.toNat % 2 = 0) : (BitVec.ofInt 32 (base.toInt + offset.toInt)).toNat % 2 = 0 := by
  have first : base.toInt % 2 = 0 := by rw [toInt_emod_two (by decide), evenBase]; rfl
  have second : offset.toInt % 2 = 0 := by rw [toInt_emod_two pos, evenOffset]; rfl
  rw [BitVec.toNat_ofInt]
  omega

/-! ### Aligned and misaligned targets -/

theorem misalignedTarget_iff (t : Word) : misalignedTarget t = true ↔ ¬ wordAligned t := by
  rw [misalignedTarget, bne_iff_ne]

theorem jumpAndLink_of_aligned {t : Word} (word : wordAligned t) (rd : Reg) (s : State) :
    jumpAndLink rd t s = (s.setX rd (s.pc + 4#32)).jump t :=
  if_neg (mt (misalignedTarget_iff t).1 (not_not.2 word))

theorem jumpAndLink_of_misaligned {t : Word} (unaligned : ¬ wordAligned t) (rd : Reg) (s : State) :
    jumpAndLink rd t s = raiseExc .instructionAddressMisaligned t s :=
  if_pos ((misalignedTarget_iff t).2 unaligned)

/-- A taken branch is a jump that links to `x0`. -/
theorem branchIf_of_taken {taken : Prop} [Decidable taken] (h : taken) (offset : BitVec 13) (s : State) :
    branchIf (decide taken) offset s = jumpAndLink 0#5 (BitVec.ofInt 32 (s.pc.toInt + offset.toInt)) s := by
  rw [branchIf, if_pos (decide_eq_true h), immB, add_signExtend_eq_ofInt, jumpAndLink, State.setX_x0]

theorem branchIf_of_not_taken {taken : Prop} [Decidable taken] (h : ¬ taken) (offset : BitVec 13) (s : State) :
    branchIf (decide taken) offset s = s.advance := by
  rw [branchIf, decide_eq_false h]
  rfl

/-! ### What a transfer leaves -/

section
variable {i : Instr} {s : State} {rd : Reg} {t : Word} (runs : exec i s = .next (jumpAndLink rd t s))
include runs

theorem JumpsAndLinks.of_jumpAndLink (word : wordAligned t) : JumpsAndLinks i s rd (s.pc + 4#32) t := by
  rw [jumpAndLink_of_aligned word] at runs
  have retires : RetiresTo s ((s.setX rd (s.pc + 4#32)).jump t) t := ⟨rfl, rfl, rfl⟩
  exact ⟨_, runs, s.setX_becomes rd (s.pc + 4#32), retires, fun _ => rfl, rfl⟩

/-- A jump to a misaligned target raises on itself, before it links (41_rv32i_control.md R251). -/
theorem Raises.of_jumpAndLink (unaligned : ¬ wordAligned t) : Raises i s 0 t := by
  rwa [jumpAndLink_of_misaligned unaligned] at runs

end

section
variable {i : Instr} {s : State} {taken : Prop} [Decidable taken] {offset : BitVec 13}
  (runs : exec i s = .next (branchIf (decide taken) offset s))
include runs

theorem BranchesOn.of_branchIf : BranchesOn i s taken (BitVec.ofInt 32 (s.pc.toInt + offset.toInt)) := by
  refine ⟨fun holds word => ?jumps, fun fails => ?passes⟩
  case jumps =>
    rw [branchIf_of_taken holds, jumpAndLink_of_aligned word, State.setX_x0] at runs
    exact ⟨_, runs, ⟨rfl, rfl, rfl⟩, fun _ => rfl, rfl⟩
  case passes =>
    rw [branchIf_of_not_taken fails] at runs
    exact ⟨_, runs, ⟨rfl, rfl, rfl⟩, fun _ => rfl, rfl⟩

theorem Raises.of_branchIf (unaligned : ¬ wordAligned (BitVec.ofInt 32 (s.pc.toInt + offset.toInt))) (holds : taken) :
    Raises i s 0 (BitVec.ofInt 32 (s.pc.toInt + offset.toInt)) := by
  rw [branchIf_of_taken holds] at runs
  exact .of_jumpAndLink runs unaligned

end

/-! ### The instructions as the shapes they share -/

section
variable (s : State) (rd rs1 rs2 : Reg) (imm : BitVec 12) (offset : BitVec 13)

theorem exec_jal (offsetJ : BitVec 21) : exec (.jal rd offsetJ) s =
    .next (jumpAndLink rd (BitVec.ofInt 32 (s.pc.toInt + offsetJ.toInt)) s) := by
  rw [← add_signExtend_eq_ofInt]
  rfl

theorem exec_jalr : exec (.jalr rd rs1 imm) s = .next (jumpAndLink rd
    (BitVec.ofNat 32 ((BitVec.ofInt 32 ((s.x rs1).toInt + imm.toInt)).toNat / 2 * 2)) s) := by
  rw [← clearBit0_eq_ofNat, ← add_signExtend_eq_ofInt]
  rfl

theorem exec_beq : exec (.beq rs1 rs2 offset) s =
    .next (branchIf (decide (s.x rs1 = s.x rs2)) offset s) := rfl

theorem exec_bne : exec (.bne rs1 rs2 offset) s =
    .next (branchIf (decide (s.x rs1 ≠ s.x rs2)) offset s) := by
  rw [decide_not]
  rfl

theorem exec_blt : exec (.blt rs1 rs2 offset) s =
    .next (branchIf (decide ((s.x rs1).toInt < (s.x rs2).toInt)) offset s) := rfl

theorem exec_bge : exec (.bge rs1 rs2 offset) s =
    .next (branchIf (decide ((s.x rs2).toInt ≤ (s.x rs1).toInt)) offset s) := by
  simp only [← not_lt, decide_not]
  rfl

theorem exec_bltu : exec (.bltu rs1 rs2 offset) s =
    .next (branchIf (decide ((s.x rs1).toNat < (s.x rs2).toNat)) offset s) := rfl

theorem exec_bgeu : exec (.bgeu rs1 rs2 offset) s =
    .next (branchIf (decide ((s.x rs2).toNat ≤ (s.x rs1).toNat)) offset s) := by
  simp only [← not_lt, decide_not]
  rfl

end

/-! ### The statements -/

/-- Settles O18: both jumps are `jumpAndLink`, to the target stated. -/
theorem jumpsLinkAndRedirect : Obligations.JumpsLinkAndRedirect := by
  intro s rd rs1 offset imm t word
  refine ⟨?jal, ?jalr⟩
  case jal =>
    rintro rfl
    exact .of_jumpAndLink (exec_jal s rd offset) word
  case jalr =>
    rintro rfl
    exact .of_jumpAndLink (exec_jalr s rd rs1 imm) word

/-- Settles O19: each branch is `branchIf` on the condition stated. -/
theorem branchesFollowTheirCondition : Obligations.BranchesFollowTheirCondition := by
  rintro s rs1 rs2 offset a b t rfl rfl rfl
  exact ⟨.of_branchIf (exec_beq ..), .of_branchIf (exec_bne ..), .of_branchIf (exec_blt ..),
    .of_branchIf (exec_bge ..), .of_branchIf (exec_bltu ..), .of_branchIf (exec_bgeu ..)⟩

/-- Settles O20: a misaligned target raises in `jumpAndLink`, which a taken branch is too; a branch not taken passes
on by `branchesFollowTheirCondition`; and bit 0 of a target is 0, so a misaligned one has bit 1 set. -/
theorem misalignedTargetsRaise : Obligations.MisalignedTargetsRaise := by
  rintro s rd rs1 rs2 offsetJ imm offset a b tj tr t rfl rfl rfl rfl rfl
  obtain ⟨beq, bne, blt, bge, bltu, bgeu⟩ := branchesFollowTheirCondition s rs1 rs2 offset _ _ _ rfl rfl rfl
  refine ⟨?jal, ?jalr, ?taken, beq.2, ?bne, ?blt, ?bge, ?bltu, ?bgeu, ?even⟩
  case jal => exact .of_jumpAndLink (exec_jal ..)
  case jalr => exact .of_jumpAndLink (exec_jalr ..)
  case taken =>
    intro unaligned
    exact ⟨.of_branchIf (exec_beq ..) unaligned, .of_branchIf (exec_bne ..) unaligned,
      .of_branchIf (exec_blt ..) unaligned, .of_branchIf (exec_bge ..) unaligned,
      .of_branchIf (exec_bltu ..) unaligned, .of_branchIf (exec_bgeu ..) unaligned⟩
  case bne => exact fun equal => bne.2 (not_not.2 equal)
  case blt => exact fun notBelow => blt.2 (not_lt.2 notBelow)
  case bge => exact fun below => bge.2 (not_le.2 below)
  case bltu => exact fun notBelow => bltu.2 (not_lt.2 notBelow)
  case bgeu => exact fun below => bgeu.2 (not_le.2 below)
  case even =>
    intro alignedPc evenJ evenB
    have evenPc : s.pc.toNat % 2 = 0 := by omega
    refine ⟨even_target (by decide) evenPc evenJ, ?jalrTarget, even_target (by decide) evenPc evenB⟩
    case jalrTarget =>
      rw [BitVec.toNat_ofNat]
      omega

end Sys2Proof.Machine
end

section
/-! PROOFS. Where loads and stores reach memory: the bytes a load returns, extended, and the bytes a store writes; and
the instructions that only pass on (20_memory.md R120, R121, R152, 42_rv32i_loadstore.md R270 to R281). -/

namespace Sys2Proof.Machine

theorem exec_lb (s : State) (rd rs1 : Reg) (imm : BitVec 12) : exec (.lb rd rs1 imm) s =
    loadInto rd (BitVec.ofInt 32 ((s.x rs1).toInt + imm.toInt)) .byte (extendSigned .byte) s := by
  rw [← effectiveAddress_signExtend]; rfl

theorem exec_sb (s : State) (rs1 rs2 : Reg) (imm : BitVec 12) : exec (.sb rs1 rs2 imm) s =
    storeFrom (BitVec.ofInt 32 ((s.x rs1).toInt + imm.toInt)) .byte (s.x rs2) s := by
  rw [← effectiveAddress_signExtend]; rfl

/-! ### Passing on -/

theorem PassesOn.of_advance {i : Instr} {s : State} (runs : exec i s = .next s.advance) : PassesOn i s := by
  have retires : RetiresTo s s.advance (s.pc + 4#32) := ⟨rfl, rfl, rfl⟩
  exact ⟨_, runs, retires, fun _ => rfl, rfl⟩

theorem exec_fence (fm pred succ : BitVec 4) (rs1 rd : Reg) (s : State) :
    exec (.fence fm pred succ rs1 rd) s = .next s.advance := rfl

/-- Above U-mode WFI is a no-op (46_system.md R367). -/
theorem exec_wfi_of_privileged {s : State} (above : s.priv ≠ .U) : exec .wfi s = .next s.advance := if_neg above

/-- Settles O29: both instructions end in `State.advance`. -/
theorem fenceAndWaitPassOn : Obligations.FenceAndWaitPassOn :=
  ⟨fun s fm pred succ rs1 rd => .of_advance (exec_fence fm pred succ rs1 rd s),
    fun _ above => .of_advance (exec_wfi_of_privileged above)⟩

/-! ### Loads -/

/-- An aligned load returns `v` of the bytes it reaches, when its extension makes `v` of the bytes zero-extended. -/
theorem Loads.of_loadInto {i : Instr} {s : State} {rd : Reg} {ea : Word} {w : Width} {f : Word → Word}
    {v : Memory → Nat → Word} (runs : exec i s = loadInto rd ea w f s) (onWidth : aligned ea w = true)
    (value : ∀ m a, f (m.load a w) = v m a) : Loads i s rd ea w.bytes v := by
  intro pa u reached
  rw [loadInto_of_reaches onWidth reached, value] at runs
  have retires : RetiresTo u (u.setX rd (v u.mem pa.toNat)).advance (u.pc + 4#32) := ⟨rfl, rfl, rfl⟩
  exact ⟨_, runs, u.setX_becomes rd _, retires, fun _ => rfl, rfl⟩

theorem extendSigned_load_byte (m : Memory) (a : Nat) :
    extendSigned .byte (m.load a .byte) = (m.read a).signExtend 32 := by
  rw [extendSigned, Memory.load, BitVec.setWidth_setWidth_of_le _ (by decide), BitVec.setWidth_eq]

theorem extendSigned_load_half (m : Memory) (a : Nat) :
    extendSigned .half (m.load a .half) = (m.read (a + 1) ++ m.read a).signExtend 32 := by
  rw [extendSigned, Memory.load, BitVec.setWidth_setWidth_of_le _ (by decide), BitVec.setWidth_eq]

/-- Settles O22: every load is `loadInto`, with the extension its rule gives. -/
theorem loadsReturnTheBytesTheyReach : Obligations.LoadsReturnTheBytesTheyReach := by
  rintro s rd rs1 imm ea rfl
  refine ⟨?lb, ?lbu, fun even => ⟨?lh, ?lhu⟩, fun word => ?lw⟩
  case lb => exact .of_loadInto (w := .byte) (exec_lb ..) rfl extendSigned_load_byte
  case lbu => exact .of_loadInto (w := .byte) (exec_lbu ..) rfl fun _ _ => rfl
  case lh => exact .of_loadInto (w := .half) (exec_lh ..) ((aligned_half_iff _).2 even) extendSigned_load_half
  case lhu => exact .of_loadInto (w := .half) (exec_lhu ..) ((aligned_half_iff _).2 even) fun _ _ => rfl
  case lw => exact .of_loadInto (w := .word) (exec_lw ..) ((aligned_word_iff _).2 word) fun _ _ => rfl

/-! ### Stores -/

/-- The reservation a store leaves, in the terms of the statements (44_a_extension.md R316). -/
theorem reservationAfterOwnWrite_eq (s : State) (a n : Nat) :
    reservationAfterOwnWrite s.config s.reservation a n = reservationAfterStore s a n := by
  simp only [reservationAfterOwnWrite, reservationAfterStore, overlapsReserved, Bool.and_eq_true, decide_eq_true_eq,
    and_assoc]

/-- A translation keeps the canonical form of memory. -/
theorem translate_done_wf {s u : State} {va : Word} {k : AccessKind} {pa : PAddr}
    (done : translate s va k = .done pa u) (wf : Memory.wf s.mem) : Memory.wf u.mem := by
  have effects := translate_effects s va k
  rw [done] at effects
  exact effects.mem wf

theorem Stores.of_storeFrom {i : Instr} {s u : State} {ea v : Word} {w : Width} {pa : PAddr}
    (runs : exec i s = storeFrom ea w v s) (onWidth : aligned ea w = true) (wf : Memory.wf s.mem)
    (reached : reaches s ea w.bytes .store pa u) : Stores i s u pa.toNat w.bytes v := by
  rw [storeFrom_of_reaches onWidth reached] at runs
  have bytes : BytesBecome u (u.stored pa.toNat w v).advance pa.toNat w.bytes v :=
    bytesBecome_of_store (translate_done_wf reached.1 wf) rfl
  have retires : RetiresTo u (u.stored pa.toNat w v).advance (u.pc + 4#32) := ⟨rfl, rfl, rfl⟩
  exact ⟨_, runs, bytes, retires, rfl, reservationAfterOwnWrite_eq u _ _, rfl⟩

/-- Settles O23: every store is `storeFrom`, of the width its rule gives. -/
theorem storesWriteTheBytesTheyReach : Obligations.StoresWriteTheBytesTheyReach := by
  rintro s u rs1 rs2 imm ea pa rfl wf
  refine ⟨?sb, fun even => ?sh, fun word => ?sw⟩
  case sb => exact .of_storeFrom (w := .byte) (exec_sb ..) rfl wf
  case sh => exact .of_storeFrom (w := .half) (exec_sh ..) ((aligned_half_iff _).2 even) wf
  case sw => exact .of_storeFrom (w := .word) (exec_sw ..) ((aligned_word_iff _).2 word) wf

end Sys2Proof.Machine
end

section
/-! PROOFS. Aligned accesses that fail: a translation that raises, and a physical address that `PhysAccessOK` refuses,
once for every shape of an access (20_memory.md R107, R120 to R122, R138, 60_exceptions.md R407, R409, R425). -/

namespace Sys2Proof.Machine

/-- A translation raises the page fault or the access fault of its kind (20_memory.md R138). -/
theorem translate_raise_code {s u : State} {va : Word} {k : AccessKind} {e : Exc}
    (raises : translate s va k = .raise e u) : e.code = pageFaultCode k ∨ e.code = accessFaultCode k := by
  obtain ⟨-, translated⟩ := translationsComeFromAnEntryOrTheWalk s va k
  by_cases on : s.translates = true
  · obtain ⟨below, paged⟩ := (translates_iff s).1 on
    exact ((translated below paged).2 e u raises).2
  · rw [translate_off (Bool.not_eq_true _ ▸ on)] at raises
    cases raises

/-! ### An instruction that is one access after a translation -/

section
variable {α : Type} {i : Instr} {s : State} {ea : Word} {k : AccessKind} {access : PAddr → State → Access α}
  {complete : α → State → State} (runs : exec i s = ((translate s ea k).bind access).finish ea complete)
include runs

theorem exec_of_translate_raises {e : Exc} {u : State} (raises : translate s ea k = .raise e u) :
    exec i s = .next (takeTrap false e.code u.pc ea u) := by
  rw [runs, raises]; rfl

theorem exec_of_access_raises {pa : PAddr} {e : Exc} {u v : State} (done : translate s ea k = .done pa u)
    (raises : access pa u = .raise e v) : exec i s = .next (takeTrap false e.code v.pc ea v) := by
  rw [runs, done, Access.bind, raises]; rfl

/-- It fails as the statements say when its access answers a refused address with the access fault of its kind. -/
theorem FailsAs.of_access {n : Nat}
    (refuses : ∀ pa u, physTarget u.config pa n k = none → access pa u = .raise (accessFaultOf k) u) :
    FailsAs i s ea n k := by
  refine ⟨fun e u raises => ⟨exec_of_translate_raises runs raises, translate_raise_code raises⟩,
    fun pa u done refused => ?_⟩
  rw [← accessFaultOf_code]
  exact exec_of_access_raises runs done (refuses pa u ((physAccessOk_eq_false_iff ..).1 refused))

end

/-! ### A refused address -/

section
variable {s : State} {pa : PAddr}

theorem physLoad_of_refused {w : Width} (refused : physTarget s.config pa w.bytes .load = none) (k : AccessKind) :
    physLoad s pa w k = .raise (accessFaultOf k) s := by
  simp only [physLoad, refused]

theorem physStore_of_refused {w : Width} (refused : physTarget s.config pa w.bytes .store = none) (v : Word) :
    physStore s pa w v = .raise .storeAmoAccessFault s := by
  simp only [physStore, refused]

theorem conditionalStore_of_refused (refused : physTarget s.config pa 4 .store = none) (v : Word) :
    conditionalStore s pa v = .raise .storeAmoAccessFault s := by
  simp only [conditionalStore, refused]

/-- An AMO needs both a load and a store of its word permitted (20_memory.md R122). -/
theorem readModifyWrite_of_refused
    (refused : physTarget s.config pa 4 .load = none ∨ physTarget s.config pa 4 .store = none) (f : Word → Word) :
    readModifyWrite s pa f = .raise .storeAmoAccessFault s := by
  obtain noLoad | noStore := refused
  · simp only [readModifyWrite, noLoad]
  · simp only [readModifyWrite, noStore]
    cases physTarget s.config pa 4 .load <;> rfl

end

/-! ### The shapes of accesses -/

section
variable {i : Instr} {s : State} {rd : Reg} {ea v : Word} {w : Width}

theorem FailsAs.of_loadInto {f : Word → Word} (runs : exec i s = loadInto rd ea w f s) (onWidth : aligned ea w = true) :
    FailsAs i s ea w.bytes .load := by
  simp only [loadInto, memRead, onWidth, Bool.not_true, Bool.false_eq_true, if_false] at runs
  exact .of_access runs fun pa u refused => physLoad_of_refused refused .load

theorem FailsAs.of_storeFrom (runs : exec i s = storeFrom ea w v s) (onWidth : aligned ea w = true) :
    FailsAs i s ea w.bytes .store := by
  simp only [storeFrom, memWrite, onWidth, Bool.not_true, Bool.false_eq_true, if_false] at runs
  exact .of_access runs fun pa u refused => physStore_of_refused refused v

variable (word : aligned ea .word = true)
include word

theorem FailsAs.of_loadReserved (runs : exec i s = loadReserved rd ea s) : FailsAs i s ea 4 .load := by
  simp only [loadReserved, word, Bool.not_true, Bool.false_eq_true, if_false] at runs
  refine .of_access runs fun pa u refused => ?_
  rw [physLoad_of_refused (w := .word) refused]
  rfl

theorem FailsAs.of_storeConditional (runs : exec i s = storeConditional rd ea v s) : FailsAs i s ea 4 .store := by
  simp only [storeConditional, word, Bool.not_true, Bool.false_eq_true, if_false] at runs
  exact .of_access runs fun pa u refused => conditionalStore_of_refused refused v

/-- An AMO fails as a store does, and at an address that refuses its load with the same access fault. -/
theorem failsAs_of_atomicOp (op : Word → Word → Word) (runs : exec i s = atomicOp rd ea v op s) :
    FailsAs i s ea 4 .store ∧
      ∀ pa u, translate s ea .store = .done pa u → physAccessOk u.config pa 4 .load = false →
        exec i s = .next (takeTrap false 7 u.pc ea u) := by
  simp only [atomicOp, word, Bool.not_true, Bool.false_eq_true, if_false] at runs
  refine ⟨.of_access runs fun pa u refused => readModifyWrite_of_refused (.inr refused) _,
    fun pa u done refused => ?_⟩
  have noLoad := (physAccessOk_eq_false_iff ..).1 refused
  exact exec_of_access_raises runs done (readModifyWrite_of_refused (.inl noLoad) _)

end

/-- Settles O26: each instruction is one of the shapes above. -/
theorem failedAccessesTrap : Obligations.FailedAccessesTrap := by
  intro s rd rs1 rs2 imm aq rl ea
  refine ⟨?loadsAndStores, ?atomics⟩
  case loadsAndStores =>
    rintro rfl
    refine ⟨?lb, ?lbu, ?sb, fun even => ?halves, fun word => ?words⟩
    case lb => exact .of_loadInto (w := .byte) (exec_lb ..) rfl
    case lbu => exact .of_loadInto (w := .byte) (exec_lbu ..) rfl
    case sb => exact .of_storeFrom (w := .byte) (exec_sb ..) rfl
    case halves =>
      rw [← aligned_half_iff] at even
      exact ⟨.of_loadInto (exec_lh ..) even, .of_loadInto (exec_lhu ..) even, .of_storeFrom (exec_sh ..) even⟩
    case words =>
      rw [← aligned_word_iff] at word
      exact ⟨.of_loadInto (exec_lw ..) word, .of_storeFrom (exec_sw ..) word⟩
  case atomics =>
    rintro rfl word
    rw [← aligned_word_iff] at word
    refine ⟨.of_loadReserved word (exec_lrW ..), .of_storeConditional word (exec_scW ..), ?amos⟩
    case amos =>
      simp only [List.forall_mem_cons, List.not_mem_nil, false_imp_iff, implies_true, and_true]
      exact ⟨failsAs_of_atomicOp word (fun _ src => src) rfl, failsAs_of_atomicOp word (· + ·) rfl,
        failsAs_of_atomicOp word (· ^^^ ·) rfl, failsAs_of_atomicOp word (· &&& ·) rfl,
        failsAs_of_atomicOp word (· ||| ·) rfl, failsAs_of_atomicOp word minSigned rfl,
        failsAs_of_atomicOp word maxSigned rfl, failsAs_of_atomicOp word minUnsigned rfl,
        failsAs_of_atomicOp word maxUnsigned rfl⟩

end Sys2Proof.Machine
end

section
/-! PROOFS. Multiplication, division and remainder: the narrowed results as halves of exact products and as the
quotient and remainder of the integers and of the naturals (43_m_extension.md R290 to R299). -/

namespace Sys2Proof.Machine

/-! ### Multiplication -/

/-- The high half of a product is its quotient by 2^32, rounded down, modulo 2^32. -/
theorem highHalf_eq_ofInt (p : Int) : highHalf p = BitVec.ofInt 32 (p / 2 ^ 32) := by
  apply BitVec.eq_of_toNat_eq
  rw [highHalf, BitVec.extractLsb'_toNat, BitVec.toNat_ofInt, BitVec.toNat_ofInt, Nat.shiftRight_eq_div_pow]
  omega

theorem highHalf_natCast (n : Nat) : highHalf n = BitVec.ofNat 32 (n / 2 ^ 32) := by
  rw [highHalf_eq_ofInt, ← BitVec.ofInt_natCast]
  rfl

theorem mul_eq_ofInt (a b : Word) : a * b = BitVec.ofInt 32 (a.toInt * b.toInt) := by
  rw [BitVec.ofInt_mul, BitVec.ofInt_toInt, BitVec.ofInt_toInt]

/-- Settles O16: each instruction ends in `writeBack`, of the product modulo 2^32 or of its `highHalf`. -/
theorem multiplicationsReturnTheirHalf : Obligations.MultiplicationsReturnTheirHalf := by
  rintro s rd rs1 rs2 a b rfl rfl
  refine ⟨?mul, ?mulh, ?mulhsu, ?mulhu⟩
  case mul => exact .of_writeBack rfl (mul_eq_ofInt (s.x rs1) (s.x rs2))
  case mulh | mulhsu => exact .of_writeBack rfl (highHalf_eq_ofInt _)
  case mulhu => exact .of_writeBack rfl (highHalf_natCast ((s.x rs1).toNat * (s.x rs2).toNat))

/-! ### The special rows of the table (43_m_extension.md R299) -/

theorem division_by_zero (a : Word) {b : Word} (zero : b = 0#32) :
    divSigned a b = 0xFFFFFFFF#32 ∧ remSigned a b = a ∧ divUnsigned a b = 0xFFFFFFFF#32 ∧ remUnsigned a b = a :=
  ⟨if_pos zero, if_pos zero, if_pos zero, if_pos zero⟩

theorem division_overflow {a b : Word} (minimum : a = 0x80000000#32) (minusOne : b = 0xFFFFFFFF#32) :
    divSigned a b = 0x80000000#32 ∧ remSigned a b = 0#32 ∧ divUnsigned a b = 0#32 ∧
      remUnsigned a b = 0x80000000#32 := by
  subst minimum minusOne
  decide

/-! ### The results as the library's quotients and remainders -/

section
variable {a b : Word}

theorem divSigned_of_ne_zero (nonzero : b ≠ 0#32) : divSigned a b = a.sdiv b := by
  rw [divSigned, if_neg nonzero]
  split
  next overflow =>
    obtain ⟨rfl, rfl⟩ := overflow
    exact BitVec.intMin_sdiv_neg_one.symm
  next =>
    apply BitVec.eq_of_toInt_eq
    rw [BitVec.toInt_ofInt, BitVec.toInt_sdiv]

theorem remSigned_of_ne_zero (nonzero : b ≠ 0#32) : remSigned a b = a.srem b := by
  rw [remSigned, if_neg nonzero]
  split
  next overflow =>
    obtain ⟨rfl, rfl⟩ := overflow
    decide
  next => rw [← Int.tmod_def, ← BitVec.toInt_srem, BitVec.ofInt_toInt]

theorem divUnsigned_of_ne_zero (nonzero : b ≠ 0#32) : divUnsigned a b = a / b := by
  rw [divUnsigned, if_neg nonzero, ← BitVec.toNat_udiv, BitVec.ofNat_toNat, BitVec.setWidth_eq]

theorem remUnsigned_of_ne_zero (nonzero : b ≠ 0#32) : remUnsigned a b = a % b := by
  rw [remUnsigned, if_neg nonzero, ← BitVec.toNat_umod, BitVec.ofNat_toNat, BitVec.setWidth_eq]

/-! ### The identities -/

/-- Outside the special rows the quotient fits in a word, so the identity is the one of division rounding toward
zero. -/
theorem signed_division_exact (nonzero : b ≠ 0#32) (fits : ¬ (a = 0x80000000#32 ∧ b = 0xFFFFFFFF#32)) :
    a.toInt = b.toInt * (divSigned a b).toInt + (remSigned a b).toInt := by
  have quotient : (a.sdiv b).toInt = a.toInt.tdiv b.toInt :=
    BitVec.toInt_sdiv_of_ne_or_ne a b (not_and_or.1 fits)
  rw [divSigned_of_ne_zero nonzero, remSigned_of_ne_zero nonzero, quotient, BitVec.toInt_srem, Int.mul_tdiv_add_tmod]

theorem natAbs_remSigned_lt (nonzero : b ≠ 0#32) : (remSigned a b).toInt.natAbs < b.toInt.natAbs := by
  have divisor : b.toInt ≠ 0 := fun zero => nonzero (BitVec.eq_of_toInt_eq zero)
  rw [remSigned_of_ne_zero nonzero, BitVec.toInt_srem, Int.natAbs_tmod]
  exact Nat.mod_lt _ (Int.natAbs_pos.2 divisor)

/-- The remainder is 0 when the division is exact, and has the dividend's sign otherwise. -/
theorem remSigned_sign (nonzero : b ≠ 0#32) :
    (remSigned a b).toInt = 0 ∨ ((remSigned a b).toInt < 0 ↔ a.toInt < 0) := by
  have sign := Int.sign_tmod a.toInt b.toInt
  rw [remSigned_of_ne_zero nonzero, BitVec.toInt_srem]
  split at sign
  next => exact .inl (Int.sign_eq_zero_iff_zero.1 sign)
  next => exact .inr (by rw [← Int.sign_eq_neg_one_iff_neg, sign, Int.sign_eq_neg_one_iff_neg])

theorem unsigned_division_exact (nonzero : b ≠ 0#32) :
    a.toNat = b.toNat * (divUnsigned a b).toNat + (remUnsigned a b).toNat := by
  rw [divUnsigned_of_ne_zero nonzero, remUnsigned_of_ne_zero nonzero, BitVec.toNat_udiv, BitVec.toNat_umod,
    Nat.div_add_mod]

theorem toNat_remUnsigned_lt (nonzero : b ≠ 0#32) : (remUnsigned a b).toNat < b.toNat := by
  have divisor : 0 < b.toNat := Nat.pos_of_ne_zero fun zero => nonzero (BitVec.eq_of_toNat_eq zero)
  rw [remUnsigned_of_ne_zero nonzero, BitVec.toNat_umod]
  exact Nat.mod_lt _ divisor

variable (a b)

/-- Modulo 2^32 the identity holds in the special rows too, by the values the table gives. -/
theorem signed_division_mod : a = b * divSigned a b + remSigned a b := by
  by_cases zero : b = 0#32
  · obtain ⟨-, remainder, -, -⟩ := division_by_zero a zero
    rw [remainder, zero, BitVec.zero_mul, BitVec.zero_add]
  by_cases overflow : a = 0x80000000#32 ∧ b = 0xFFFFFFFF#32
  · obtain ⟨rfl, rfl⟩ := overflow
    decide
  · have identity := signed_division_exact zero overflow
    calc a = BitVec.ofInt 32 a.toInt := BitVec.ofInt_toInt.symm
      _ = b * divSigned a b + remSigned a b := by
        rw [identity, BitVec.ofInt_add, BitVec.ofInt_mul, BitVec.ofInt_toInt, BitVec.ofInt_toInt, BitVec.ofInt_toInt]

theorem unsigned_division_mod : a = b * divUnsigned a b + remUnsigned a b := by
  by_cases zero : b = 0#32
  · obtain ⟨-, -, -, remainder⟩ := division_by_zero a zero
    rw [remainder, zero, BitVec.zero_mul, BitVec.zero_add]
  · apply BitVec.eq_of_toNat_eq
    rw [BitVec.toNat_add, BitVec.toNat_mul, Nat.mod_add_mod, ← unsigned_division_exact zero,
      Nat.mod_eq_of_lt a.isLt]

end

/-- Settles O17: each instruction writes back the result of its function, which follows the table and the
identities above. -/
theorem divisionsFollowTheTable : Obligations.DivisionsFollowTheTable := by
  rintro s rd rs1 rs2 a b rfl rfl
  refine ⟨_, _, _, _, .of_writeBack rfl rfl, .of_writeBack rfl rfl, .of_writeBack rfl rfl, .of_writeBack rfl rfl,
    division_by_zero _, division_overflow, fun nonzero fits => ?signed, fun nonzero => ?unsigned,
    signed_division_mod _ _, unsigned_division_mod _ _⟩
  case signed =>
    exact ⟨signed_division_exact nonzero fits, natAbs_remSigned_lt nonzero, remSigned_sign nonzero⟩
  case unsigned => exact ⟨unsigned_division_exact nonzero, toNat_remUnsigned_lt nonzero⟩

end Sys2Proof.Machine
end

section
/-! PROOFS. The atomics where they reach memory: what LR.W reserves, when SC.W writes, and what each AMO writes
(44_a_extension.md R310 to R326). -/

namespace Sys2Proof.Machine

/-! ### LR.W and SC.W -/

/-- Settles O31: the word loaded goes to `rd` in the state that holds the new reservation. -/
theorem loadReservedReserves : Obligations.LoadReservedReserves := by
  intro s u rd rs1 aq rl pa word reached
  rw [← aligned_word_iff] at word
  have runs := loadReserved_of_reaches word reached rd
  exact ⟨_, (exec_lrW ..).trans runs, State.setX_becomes _ rd _, ⟨rfl, rfl, rfl⟩, fun _ => rfl, rfl, rfl⟩

/-- Settles O32: the test of the reservation decides which of the two ends `storeConditional` has, and both give the
reservation up. -/
theorem storeConditionalTestsTheReservation : Obligations.StoreConditionalTestsTheReservation := by
  intro s u rd rs1 rs2 aq rl pa word wf
  rw [← aligned_word_iff] at word
  refine ⟨fun reached reserved => ?succeeds, fun translated permitted unreserved => ?fails⟩
  case succeeds =>
    rw [← reservedAt_iff] at reserved
    have runs := storeConditional_of_reserved word reached reserved rd (s.x rs2)
    have bytes : BytesBecome u ((u.stored pa.toNat .word (s.x rs2)).dropReservation.setX rd 0#32).advance pa.toNat 4
        (s.x rs2) := bytesBecome_of_store (w := .word) (translate_done_wf reached.1 wf) rfl
    have given := congrArg (Reservation.mk false) (reservationAfterOwnWrite_addr u.config u.reservation pa.toNat 4)
    exact ⟨_, (exec_scW ..).trans runs, bytes, State.setX_becomes _ rd _, ⟨rfl, rfl, rfl⟩, rfl, given, rfl⟩
  case fails =>
    rw [ne_eq, ← reservedAt_iff, Bool.not_eq_true] at unreserved
    have runs := storeConditional_of_unreserved word translated permitted unreserved rd (s.x rs2)
    exact ⟨_, (exec_scW ..).trans runs, State.setX_becomes _ rd _, ⟨rfl, rfl, rfl⟩, fun _ => rfl, rfl, rfl⟩

/-! ### The AMOs -/

theorem atomicOp_of_reaches {s u : State} {ea : Word} {pa : PAddr} (word : aligned ea .word = true)
    (reached : reaches s ea 4 .store pa u) (loads : physTarget u.config pa 4 .load = some .memory) (rd : Reg)
    (src : Word) (op : Word → Word → Word) :
    atomicOp rd ea src op s = .next
      ((u.stored pa.toNat .word (op (wordAt u.mem pa.toNat) src)).setX rd (wordAt u.mem pa.toNat)).advance := by
  obtain ⟨translated, answered⟩ := reached
  simp [atomicOp, word, translated, Access.bind, readModifyWrite, loads, answered, physRead, storeTo_memory,
    Access.finish, wordAt_eq_load]

/-- An AMO exchanges the word it reaches for `v`, when its operation makes `v` of that word and `rs2`. -/
theorem Exchanges.of_atomicOp {i : Instr} {s u : State} {rd : Reg} {ea src v : Word} {pa : PAddr}
    {op : Word → Word → Word} (runs : exec i s = atomicOp rd ea src op s) (word : aligned ea .word = true)
    (wf : Memory.wf s.mem) (reached : reaches s ea 4 .store pa u)
    (loads : physTarget u.config pa 4 .load = some .memory) (value : op (wordAt u.mem pa.toNat) src = v) :
    Exchanges i s u pa.toNat v rd (wordAt u.mem pa.toNat) (reservationAfterStore u pa.toNat 4) := by
  rw [atomicOp_of_reaches word reached loads, value] at runs
  have bytes : BytesBecome u ((u.stored pa.toNat .word v).setX rd (wordAt u.mem pa.toNat)).advance pa.toNat 4 v :=
    bytesBecome_of_store (w := .word) (translate_done_wf reached.1 wf) rfl
  exact ⟨_, runs, bytes, State.setX_becomes _ rd _, ⟨rfl, rfl, rfl⟩, rfl, reservationAfterOwnWrite_eq u _ _, rfl⟩

section
variable (old src : Word)

theorem minSigned_eq_ofInt : minSigned old src = BitVec.ofInt 32 (min old.toInt src.toInt) := by
  simp only [minSigned, BitVec.slt_iff_toInt_lt, min_def_lt, apply_ite (BitVec.ofInt 32), BitVec.ofInt_toInt]

theorem maxSigned_eq_ofInt : maxSigned old src = BitVec.ofInt 32 (max old.toInt src.toInt) := by
  simp only [maxSigned, BitVec.slt_iff_toInt_lt, max_comm old.toInt, max_def_lt, apply_ite (BitVec.ofInt 32),
    BitVec.ofInt_toInt]

theorem minUnsigned_eq_ofNat : minUnsigned old src = BitVec.ofNat 32 (min old.toNat src.toNat) := by
  simp only [minUnsigned, BitVec.ult_iff_toNat_lt, min_def_lt, apply_ite (BitVec.ofNat 32), BitVec.ofNat_toNat,
    BitVec.setWidth_eq]

theorem maxUnsigned_eq_ofNat : maxUnsigned old src = BitVec.ofNat 32 (max old.toNat src.toNat) := by
  simp only [maxUnsigned, BitVec.ult_iff_toNat_lt, max_comm old.toNat, max_def_lt, apply_ite (BitVec.ofNat 32),
    BitVec.ofNat_toNat, BitVec.setWidth_eq]

end

/-- Settles O33: every AMO is `atomicOp`, of the operation its rule gives. -/
theorem atomicsExchangeTheWord : Obligations.AtomicsExchangeTheWord := by
  rintro s u rd rs1 rs2 aq rl pa _ _ _ word wf reached loads rfl rfl rfl
  rw [← aligned_word_iff] at word
  refine ⟨?swap, ?add, ?xor, ?and, ?or, ?min, ?max, ?minu, ?maxu⟩
  case swap => exact .of_atomicOp (op := fun _ src => src) rfl word wf reached loads rfl
  case add => exact .of_atomicOp (op := (· + ·)) rfl word wf reached loads (add_eq_ofNat ..)
  case xor => exact .of_atomicOp (op := (· ^^^ ·)) rfl word wf reached loads rfl
  case and => exact .of_atomicOp (op := (· &&& ·)) rfl word wf reached loads rfl
  case or => exact .of_atomicOp (op := (· ||| ·)) rfl word wf reached loads rfl
  case min => exact .of_atomicOp rfl word wf reached loads (minSigned_eq_ofInt ..)
  case max => exact .of_atomicOp rfl word wf reached loads (maxSigned_eq_ofInt ..)
  case minu => exact .of_atomicOp rfl word wf reached loads (minUnsigned_eq_ofNat ..)
  case maxu => exact .of_atomicOp rfl word wf reached loads (maxUnsigned_eq_ofNat ..)

end Sys2Proof.Machine
end

section
/-! PROOFS. What an instruction can do to the reservation: its traps as the statements describe them, the writes of its
own, and the rest, which leave it alone (44_a_extension.md R312 to R316, 60_exceptions.md R400, R430). -/

namespace Sys2Proof.Machine

/-! ### What a translation leaves -/

section
variable {s u : State} {va : Word} {k : AccessKind}

theorem translate_done_trace {pa : PAddr} (done : translate s va k = .done pa u) : TranslationTrace s va k u := by
  by_cases on : s.translates = true
  · obtain ⟨below, paged⟩ := (translates_iff s).1 on
    exact (((translationsComeFromAnEntryOrTheWalk s va k).2 below paged).1 pa u done).1
  · rw [translate_off (Bool.not_eq_true _ ▸ on)] at done
    cases done
    exact .inl (CacheTrace.refl s)

theorem translate_raise_trace {e : Exc} (raises : translate s va k = .raise e u) : CacheTrace s u := by
  by_cases on : s.translates = true
  · obtain ⟨below, paged⟩ := (translates_iff s).1 on
    exact (((translationsComeFromAnEntryOrTheWalk s va k).2 below paged).2 e u raises).1
  · rw [translate_off (Bool.not_eq_true _ ▸ on)] at raises
    cases raises

end

/-! ### Traps on an instruction -/

/-- An exception before anything has changed. -/
theorem TrapsOnly.of_raiseExc (i : Instr) (s : State) (e : Exc) (info : Word) : TrapsOnly i s (raiseExc e info s) :=
  ⟨_, _, s, rfl, .inl rfl⟩

/-- An access of instruction `i` after its translation ends in a trap, of the translation or of the access where it
raises without a change, or else completes both. -/
theorem trapsOnly_or_accessed {α : Type} {i : Instr} {s t : State} {ea tval : Word} {k : AccessKind} {e₀ : Exc}
    {misaligned : Bool} {access : PAddr → State → Access α} {complete : α → State → State}
    (own : accessOf s i = some (ea, k)) (raises_same : ∀ pa u e v, access pa u = .raise e v → v = u)
    (h : (if misaligned then .next (raiseExc e₀ tval s)
      else ((translate s ea k).bind access).finish tval complete : Result) = .next t) :
    TrapsOnly i s t ∨ ∃ pa u v w, translate s ea k = .done pa u ∧ access pa u = .done v w ∧ t = complete v w := by
  cases misaligned with
  | true => cases h; exact .inl (.of_raiseExc i s e₀ tval)
  | false =>
    replace h : ((translate s ea k).bind access).finish tval complete = .next t := h
    cases translated : translate s ea k with
    | refused r => rw [translated] at h; cases h
    | raise e u =>
      rw [translated] at h
      cases h
      have same := translate_raise_trace translated
      rw [raiseExc, same.pc_eq]
      exact .inl ⟨_, _, u, rfl, .inr ⟨ea, k, own, .inl ⟨e, translated, same⟩⟩⟩
    | done pa u =>
      rw [translated] at h
      obtain ⟨v, w, completed, rfl⟩ | ⟨e, w, raised, rfl⟩ := Access.finish_next h
      · exact .inr ⟨pa, u, v, w, rfl, completed, rfl⟩
      · cases raises_same pa u e w raised
        have trace := translate_done_trace translated
        rw [raiseExc, trace.pc_eq]
        exact .inl ⟨_, _, u, rfl, .inr ⟨ea, k, own, .inr ⟨pa, translated, trace⟩⟩⟩

/-! ### An access at a translated address raises before it changes anything -/

section
variable {s u : State} {pa : PAddr} {e : Exc}

theorem physLoad_raise {w : Width} {k : AccessKind} (h : physLoad s pa w k = .raise e u) : u = s := by
  unfold physLoad at h
  split at h
  · cases h; rfl
  · split at h <;> cases h

/-- The read of LR.W raises where its load does. -/
theorem reservedLoad_raise
    (h : ((physLoad s pa .word .load).bind fun v t => Access.done (pa, v) t) = .raise e u) : u = s := by
  cases read : physLoad s pa .word .load with
  | done v t => rw [read] at h; cases h
  | raise e' t => rw [read] at h; cases h; exact physLoad_raise read
  | refused r => rw [read] at h; cases h

theorem storeTo_ne_raise {g : Target} {w : Width} {v : Word} : storeTo s g pa w v ≠ .raise e u := by
  unfold storeTo
  split <;> nofun

theorem physStore_raise {w : Width} {v : Word} (h : physStore s pa w v = .raise e u) : u = s := by
  unfold physStore at h
  split at h
  · cases h; rfl
  · exact absurd h storeTo_ne_raise

/-- What follows a store raises only where the store would. -/
theorem storeTo_bind_ne_raise {g : Target} {w : Width} {v r : Word} :
    ((storeTo s g pa w v).bind fun _ t => Access.done r t) ≠ .raise e u := by
  cases stored : storeTo s g pa w v with
  | raise e' t => exact absurd stored storeTo_ne_raise
  | done _ t => nofun
  | refused r => nofun

theorem conditionalStore_raise {v : Word} (h : conditionalStore s pa v = .raise e u) : u = s := by
  unfold conditionalStore at h
  split at h
  · cases h; rfl
  · split at h
    · exact absurd h storeTo_bind_ne_raise
    · cases h

theorem readModifyWrite_raise {f : Word → Word} (h : readModifyWrite s pa f = .raise e u) : u = s := by
  unfold readModifyWrite at h
  split at h
  · split at h
    · exact absurd h storeTo_bind_ne_raise
    · cases h
  · cases h; rfl

end

/-! ### What the hart's own writes do to the reservation (R316) -/

/-- The reservation `r` has become `r'` by writes of the hart's own: given up only with
`OWN_STORE_CLEARS_RESERVATION`. -/
def AfterOwnWrites (c : Config) (r r' : Reservation) : Prop :=
  r' = r ∨ (c.ownStoreClearsReservation = true ∧ r' = ⟨false, r.addr⟩)

theorem AfterOwnWrites.refl (c : Config) (r : Reservation) : AfterOwnWrites c r r := .inl rfl

theorem AfterOwnWrites.trans {c : Config} {r r' r'' : Reservation} (h : AfterOwnWrites c r r')
    (g : AfterOwnWrites c r' r'') : AfterOwnWrites c r r'' := by
  obtain rfl | ⟨clears, rfl⟩ := h
  · exact g
  · obtain rfl | ⟨-, rfl⟩ := g <;> exact .inr ⟨clears, rfl⟩

/-- The hart's own writes neither move a reservation nor make one valid. -/
theorem AfterOwnWrites.unmade {c : Config} {r r' : Reservation} (h : AfterOwnWrites c r r') :
    r'.addr = r.addr ∧ (r'.valid = true → r.valid = true) := by
  obtain rfl | ⟨-, rfl⟩ := h
  · exact ⟨rfl, id⟩
  · exact ⟨rfl, nofun⟩

theorem afterOwnWrites_reservationAfterOwnWrite (c : Config) (r : Reservation) (a n : Nat) :
    AfterOwnWrites c r (reservationAfterOwnWrite c r a n) := by
  unfold reservationAfterOwnWrite
  split
  · next clears => exact .inr ⟨(Bool.and_eq_true_iff.1 clears).2, rfl⟩
  · exact .refl c r

section
variable {s u : State} {pa : PAddr}

theorem physWrite_reservation {g : Target} {w : Width} {v : Word} (h : physWrite s g pa w v = some u) :
    u.reservation = reservationAfterOwnWrite s.config s.reservation pa.toNat w.bytes := by
  cases g with
  | memory => cases h; rfl
  | clint r => cases r <;> (cases h; rfl)
  | device => cases h

theorem physWrite_ownWrites {g : Target} {w : Width} {v : Word} (h : physWrite s g pa w v = some u) :
    AfterOwnWrites s.config s.reservation u.reservation := by
  rw [physWrite_reservation h]
  exact afterOwnWrites_reservationAfterOwnWrite ..

theorem storeTo_ownWrites {g : Target} {w : Width} {v : Word} (h : storeTo s g pa w v = .done () u) :
    AfterOwnWrites s.config s.reservation u.reservation := by
  unfold storeTo at h
  split at h
  · next written =>
    cases h
    simpa only [State.noteStore_config, State.noteStore_reservation] using physWrite_ownWrites written
  · cases h

theorem physStore_ownWrites {w : Width} {v : Word} (h : physStore s pa w v = .done () u) :
    AfterOwnWrites s.config s.reservation u.reservation := by
  unfold physStore at h
  split at h
  · cases h
  · exact storeTo_ownWrites h

theorem readModifyWrite_ownWrites {f : Word → Word} {old : Word} (h : readModifyWrite s pa f = .done old u) :
    AfterOwnWrites s.config s.reservation u.reservation := by
  unfold readModifyWrite at h
  split at h
  · split at h
    · obtain ⟨_, t, stored, same⟩ := Access.bind_done h
      cases same
      exact storeTo_ownWrites stored
    · cases h
  · cases h

theorem physLoad_done {w : Width} {k : AccessKind} {v : Word} (h : physLoad s pa w k = .done v u) : u = s := by
  unfold physLoad at h
  split at h
  · cases h
  · split at h <;> cases h
    rfl

/-- A translation writes at most the page-table entry it sets A or D in. -/
theorem translate_ownWrites {va : Word} {k : AccessKind} (done : translate s va k = .done pa u) :
    AfterOwnWrites s.config s.reservation u.reservation := by
  obtain same | ⟨_, _, _, _, w, -, -, -, -, written, same⟩ := translate_done_trace done
  · exact .inl (by rw [same])
  · have last : u.reservation = w.reservation := by rw [same]
    rw [last]
    exact physWrite_ownWrites written

/-- Writes at a translated address follow those of the translation. -/
theorem AfterOwnWrites.of_translated {va : Word} {k : AccessKind} {r : Reservation}
    (done : translate s va k = .done pa u) (stores : AfterOwnWrites u.config u.reservation r) :
    AfterOwnWrites s.config s.reservation r := by
  have accessed := translate_effects s va k
  rw [done] at accessed
  rw [accessed.config] at stores
  exact (translate_ownWrites done).trans stores

end

/-! ### What an instruction leaves of the reservation -/

theorem csrReadWrite_reservation (rd : Reg) (c : Csr) (willWrite : Bool) (f : Word → Word) (s : State) :
    (csrReadWrite rd c willWrite f s).reservation = s.reservation := by
  cases willWrite with
  | true =>
    have written : (s.writeCsr c (f (s.readCsrToModify c))).reservation = s.reservation := by rw [State.writeCsr_same]
    exact written
  | false => rfl

/-- Everything the instruction `i`, which has led from `s` to `t`, can have done to the reservation. -/
inductive ReservationEnd (i : Instr) (s t : State) : Prop
  /-- A trap, which gives it up. -/
  | traps (trapped : TrapsOnly i s t)
  /-- No access, or none that writes. -/
  | keeps (same : t.reservation = s.reservation)
  /-- A store or an AMO, or an access whose translation may have updated the page table. -/
  | ownWrites (may : writesMemory i = true ∨ s.translates = true)
    (left : AfterOwnWrites s.config s.reservation t.reservation)
  /-- LR.W. -/
  | reserves (reserving : ∃ rd rs1 aq rl, i = .lrW rd rs1 aq rl) (valid : t.reservation.valid = true)
  /-- SC.W. -/
  | givesUp (conditional : ∃ rd rs1 rs2 aq rl, i = .scW rd rs1 rs2 aq rl)
    (given : t.reservation = ⟨false, s.reservation.addr⟩)

namespace ReservationEnd
variable {i : Instr} {s t : State}

theorem of_raiseExc (e : Exc) (info : Word) : ReservationEnd i s (raiseExc e info s) :=
  .traps (.of_raiseExc i s e info)

theorem of_writeBack {rd : Reg} {v : Word} (h : writeBack rd v s = .next t) : ReservationEnd i s t := by
  cases h
  exact .keeps rfl

theorem of_jumpAndLink (rd : Reg) (target : Word) : ReservationEnd i s (jumpAndLink rd target s) := by
  unfold jumpAndLink
  split
  · exact of_raiseExc _ _
  · exact .keeps rfl

theorem of_branchIf (cond : Bool) (offset : BitVec 13) : ReservationEnd i s (branchIf cond offset s) := by
  unfold branchIf
  split
  · split
    · exact of_raiseExc _ _
    · exact .keeps rfl
  · exact .keeps rfl

theorem of_csrInstruction {inst : Word} {rd : Reg} {a : CsrAddr} {willWrite : Bool} {f : Word → Word}
    (h : csrInstruction inst rd a willWrite f s = .next t) : ReservationEnd i s t := by
  unfold csrInstruction at h
  split at h
  · cases h; exact of_raiseExc _ _
  · split at h
    · cases h; exact of_raiseExc _ _
    · cases h
    · cases h; exact .keeps (csrReadWrite_reservation ..)

theorem of_execMret (h : execMret s = .next t) : ReservationEnd i s t := by
  unfold execMret returnFromM at h
  split at h
  · split at h <;> cases h
    exact .keeps rfl
  · cases h; exact of_raiseExc _ _

/-- An instruction that is illegal in the current mode, or else leaves the reservation alone. -/
theorem of_privileged {inst : Word} {illegal : Prop} [Decidable illegal] {u : State}
    (same : u.reservation = s.reservation)
    (h : (if illegal then Host.Outcome.next (raiseIllegal inst s) else .next u : Result) = .next t) :
    ReservationEnd i s t := by
  split at h
  · cases h; exact of_raiseExc _ _
  · cases h; exact .keeps same

/-! ### The shapes of accesses -/

section
variable {rd : Reg} {ea v : Word}

theorem of_loadInto {w : Width} {f : Word → Word} (own : accessOf s i = some (ea, .load))
    (h : loadInto rd ea w f s = .next t) : ReservationEnd i s t := by
  obtain trapped | ⟨pa, u, _, _, translated, read, rfl⟩ :=
    trapsOnly_or_accessed own (fun _ _ _ _ => physLoad_raise) h
  · exact .traps trapped
  cases physLoad_done read
  by_cases on : s.translates = true
  · have left := translate_ownWrites translated
    exact .ownWrites (.inr on) left
  · rw [translate_off (Bool.not_eq_true _ ▸ on)] at translated
    cases translated
    exact .keeps rfl

theorem of_storeFrom {w : Width} (own : accessOf s i = some (ea, .store)) (writes : writesMemory i = true)
    (h : storeFrom ea w v s = .next t) : ReservationEnd i s t := by
  obtain trapped | ⟨pa, u, _, _, translated, stored, rfl⟩ :=
    trapsOnly_or_accessed own (fun _ _ _ _ => physStore_raise) h
  · exact .traps trapped
  · have left := AfterOwnWrites.of_translated translated (physStore_ownWrites stored)
    exact .ownWrites (.inl writes) left

theorem of_atomicOp {op : Word → Word → Word} (own : accessOf s i = some (ea, .store))
    (writes : writesMemory i = true) (h : atomicOp rd ea v op s = .next t) : ReservationEnd i s t := by
  obtain trapped | ⟨pa, u, _, _, translated, exchanged, rfl⟩ :=
    trapsOnly_or_accessed own (fun _ _ _ _ => readModifyWrite_raise) h
  · exact .traps trapped
  · have left := AfterOwnWrites.of_translated translated (readModifyWrite_ownWrites exchanged)
    exact .ownWrites (.inl writes) left

theorem of_loadReserved (own : accessOf s i = some (ea, .load)) (reserving : ∃ rd rs1 aq rl, i = .lrW rd rs1 aq rl)
    (h : loadReserved rd ea s = .next t) : ReservationEnd i s t := by
  obtain trapped | ⟨_, _, _, _, -, -, rfl⟩ := trapsOnly_or_accessed own (fun _ _ _ _ => reservedLoad_raise) h
  · exact .traps trapped
  · exact .reserves reserving rfl

theorem of_storeConditional (own : accessOf s i = some (ea, .store))
    (conditional : ∃ rd rs1 rs2 aq rl, i = .scW rd rs1 rs2 aq rl) (h : storeConditional rd ea v s = .next t) :
    ReservationEnd i s t := by
  obtain trapped | ⟨pa, u, _, w, translated, tested, rfl⟩ :=
    trapsOnly_or_accessed own (fun _ _ _ _ => conditionalStore_raise) h
  · exact .traps trapped
  · have first := translate_effects s ea .store
    have second := conditionalStore_effects u pa v
    rw [translated] at first
    rw [tested] at second
    exact .givesUp conditional (congrArg (Reservation.mk false) (first.trans second).addr)

end

/-- What each instruction does to the reservation, row by row. -/
theorem of_exec (h : exec i s = .next t) : ReservationEnd i s t := by
  cases i with
  | lui | auipc | addi | slti | sltiu | xori | ori | andi | slli | srli | srai | add | sub | sll | slt | sltu | xor
  | srl | sra | or | and | mul | mulh | mulhsu | mulhu | div | divu | rem | remu => exact of_writeBack h
  | jal | jalr => cases h; exact of_jumpAndLink _ _
  | beq | bne | blt | bge | bltu | bgeu => cases h; exact of_branchIf _ _
  | lb | lh | lw | lbu | lhu =>
    simp only [exec_lb, exec_lh, exec_lw, exec_lbu, exec_lhu] at h
    exact of_loadInto rfl h
  | sb | sh | sw =>
    simp only [exec_sb, exec_sh, exec_sw] at h
    exact of_storeFrom rfl rfl h
  | fence => cases h; exact .keeps rfl
  | lrW => exact of_loadReserved rfl ⟨_, _, _, _, rfl⟩ h
  | scW => exact of_storeConditional rfl ⟨_, _, _, _, _, rfl⟩ h
  | amoswapW | amoaddW | amoxorW | amoandW | amoorW | amominW | amomaxW | amominuW | amomaxuW =>
    exact of_atomicOp rfl rfl h
  | csrrw | csrrs | csrrc | csrrwi | csrrsi | csrrci => exact of_csrInstruction h
  | ecall | ebreak => cases h; exact of_raiseExc _ _
  | sret => exact of_privileged (u := returnFromS s) rfl h
  | wfi => exact of_privileged (u := s.advance) rfl h
  | sfenceVma rs1 => exact of_privileged (u := (fenceTlbs s rs1).advance) rfl h
  | mret => exact of_execMret h

end ReservationEnd

/-- A trap gives the reservation up, and does not move it. -/
theorem TrapsOnly.reservation {i : Instr} {s t : State} (h : TrapsOnly i s t) :
    t.reservation = ⟨false, s.reservation.addr⟩ := by
  obtain ⟨code, tval, u, rfl, accessed⟩ := h
  have unmoved : u.reservation.addr = s.reservation.addr := by
    obtain rfl | ⟨ea, k, -, ⟨_, -, same⟩ | ⟨pa, translated, -⟩⟩ := accessed
    · rfl
    · rw [same]
    · have effects := translate_effects s ea k
      rw [translated] at effects
      exact effects.addr
  rw [takeTrap_reservation, ← unmoved]

section
variable {i : Instr} {s t : State} (last : ReservationEnd i s t)
include last

/-- What gives a valid reservation up (R314, R316). -/
theorem ReservationEnd.of_lost (held : s.reservation.valid = true) (lost : t.reservation.valid = false) :
    (∃ rd rs1 rs2 aq rl, i = .scW rd rs1 rs2 aq rl) ∨ TrapsOnly i s t ∨
      (s.config.ownStoreClearsReservation = true ∧ (writesMemory i = true ∨ s.translates = true)) := by
  have changed : t.reservation ≠ s.reservation := fun same => by simp [same, held] at lost
  cases last with
  | traps trapped => exact .inr (.inl trapped)
  | keeps same => exact absurd same changed
  | ownWrites may left =>
    obtain same | ⟨clears, -⟩ := left
    · exact absurd same changed
    · exact .inr (.inr ⟨clears, may⟩)
  | reserves _ valid => rw [valid] at lost; cases lost
  | givesUp conditional _ => exact .inl conditional

/-- Nothing but LR.W moves a reservation or makes one valid (R312). -/
theorem ReservationEnd.reserving_or_unmade : (∃ rd rs1 aq rl, i = .lrW rd rs1 aq rl) ∨
    (t.reservation.addr = s.reservation.addr ∧ (t.reservation.valid = true → s.reservation.valid = true)) := by
  cases last with
  | traps trapped => rw [trapped.reservation]; exact .inr ⟨rfl, nofun⟩
  | keeps same => rw [same]; exact .inr ⟨rfl, id⟩
  | ownWrites _ left => exact .inr left.unmade
  | reserves reserving _ => exact .inl reserving
  | givesUp _ given => rw [given]; exact .inr ⟨rfl, nofun⟩

end

/-- Settles O35: each instruction ends in one of the ways of `ReservationEnd`. -/
theorem reservationChangesOnlyAsListed : Obligations.ReservationChangesOnlyAsListed := by
  intro i s t runs
  have last := ReservationEnd.of_exec runs
  refine ⟨last.of_lost, fun made => last.reserving_or_unmade.resolve_right ?_⟩
  rintro ⟨unmoved, held⟩
  obtain ⟨valid, invalid⟩ | moved := made
  · rw [held valid] at invalid; cases invalid
  · exact moved unmoved

end Sys2Proof.Machine
end

section
/-! PROOFS. The CSR instructions on a CSR that exists and that the mode may access: the one shape they complete in, with
and without a write, and the operand each combines with the CSR (45_zicsr.md R340 to R347). -/

namespace Sys2Proof.Machine

/-- The set and clear forms combine the value read, for every CSR but `mip` (10_state.md R38). -/
theorem State.readCsrToModify_of_ne_mip (s : State) {c : Csr} (h : c ≠ .mip) : s.readCsrToModify c = s.readCsr c := by
  unfold State.readCsrToModify
  split
  · exact absurd rfl h
  · rfl

theorem State.writeCsr_mem (s : State) (c : Csr) (v : Word) : (s.writeCsr c v).mem = s.mem := by
  rw [State.writeCsr_same]

theorem immZ_eq_ofNat (uimm : BitVec 5) : immZ uimm = BitVec.ofNat 32 uimm.toNat := (BitVec.ofNat_toNat 32 uimm).symm

/-! ### Completing with the old value in `rd` -/

theorem Exchanged.of_advance {i : Instr} {s u : State} {rd : Reg} {v : Word}
    (runs : exec i s = .next (u.setX rd v).advance) (memory : u.mem = s.mem) : Exchanged i s u rd v := by
  have retires : RetiresTo u (u.setX rd v).advance (u.pc + 4#32) := ⟨rfl, rfl, rfl⟩
  have bytes : MemorySame s (u.setX rd v).advance := fun a => congrArg (·.read a) memory
  exact ⟨_, runs, u.setX_becomes rd v, retires, bytes, rfl⟩

theorem csrInstruction_of_present {s : State} {a : CsrAddr} {c : Csr} {willWrite : Bool} (inst : Word) (rd : Reg)
    (f : Word → Word) (permits : csrPermits s.priv a willWrite = true) (named : csrLookup s.config a = .present c) :
    csrInstruction inst rd a willWrite f s = .next (csrReadWrite rd c willWrite f s) := by
  simp only [csrInstruction, permits, named, Bool.not_true, Bool.false_eq_true, if_false]

section
variable {i : Instr} {s : State} {inst : Word} {rd : Reg} {a : CsrAddr} {c : Csr} {willWrite : Bool} {f : Word → Word}
  (named : csrLookup s.config a = .present c) (runs : exec i s = csrInstruction inst rd a willWrite f s)
include named runs

/-- One that writes stores, through the CSR's own write rule, what it makes of the value to modify. -/
theorem Exchanged.of_writing {new : Word} (permits : csrPermits s.priv a true = true) (writes : willWrite = true)
    (value : f (s.readCsrToModify c) = new) : Exchanged i s (s.writeCsr c new) rd (s.readCsr c) := by
  subst writes value
  rw [csrInstruction_of_present inst rd f permits named] at runs
  exact .of_advance runs (s.writeCsr_mem c _)

/-- One that does not write leaves every CSR alone (45_zicsr.md R341). -/
theorem Exchanged.of_reading (permits : csrPermits s.priv a false = true) (reads : willWrite = false) :
    Exchanged i s s rd (s.readCsr c) := by
  subst reads
  rw [csrInstruction_of_present inst rd f permits named] at runs
  exact .of_advance runs rfl

end

/-! ### The instructions -/

section
variable (rd rs1 : Reg) (uimm : BitVec 5) (a : CsrAddr) (s : State)

theorem exec_csrrw : exec (.csrrw rd a rs1) s =
    csrInstruction (encode (.csrrw rd a rs1)) rd a true (fun _ => s.x rs1) s := rfl

theorem exec_csrrs : exec (.csrrs rd a rs1) s =
    csrInstruction (encode (.csrrs rd a rs1)) rd a (rs1 != 0#5) (· ||| s.x rs1) s := rfl

theorem exec_csrrc : exec (.csrrc rd a rs1) s =
    csrInstruction (encode (.csrrc rd a rs1)) rd a (rs1 != 0#5) (· &&& ~~~(s.x rs1)) s := rfl

theorem exec_csrrwi : exec (.csrrwi rd a uimm) s =
    csrInstruction (encode (.csrrwi rd a uimm)) rd a true (fun _ => immZ uimm) s := rfl

theorem exec_csrrsi : exec (.csrrsi rd a uimm) s =
    csrInstruction (encode (.csrrsi rd a uimm)) rd a (uimm != 0#5) (· ||| immZ uimm) s := rfl

theorem exec_csrrci : exec (.csrrci rd a uimm) s =
    csrInstruction (encode (.csrrci rd a uimm)) rd a (uimm != 0#5) (· &&& ~~~(immZ uimm)) s := rfl

end

/-- Settles O41: the write forms always write; the set and clear forms write when their register number or their
immediate field is not 0, and else only read. -/
theorem csrInstructionsReadAndWrite : Obligations.CsrInstructionsReadAndWrite := by
  rintro s rd rs1 uimm a c _ _ z named rfl rfl hz
  obtain rfl : z = immZ uimm := hz.trans (immZ_eq_ofNat uimm).symm
  refine ⟨s.readCsrToModify_of_ne_mip, fun permits => ⟨?csrrw, ?csrrwi, fun source => ?setOrClear,
    fun field => ?setOrClearImm⟩, fun permits => ⟨fun noSource => ?readOnly, fun noField => ?readOnlyImm⟩⟩
  case csrrw => exact .of_writing named (exec_csrrw rd rs1 a s) permits rfl rfl
  case csrrwi => exact .of_writing named (exec_csrrwi rd uimm a s) permits rfl rfl
  case setOrClear =>
    have writes : (rs1 != 0#5) = true := bne_iff_ne.2 source
    exact ⟨.of_writing named (exec_csrrs rd rs1 a s) permits writes rfl,
      .of_writing named (exec_csrrc rd rs1 a s) permits writes rfl⟩
  case setOrClearImm =>
    have writes : (uimm != 0#5) = true := bne_iff_ne.2 field
    exact ⟨.of_writing named (exec_csrrsi rd uimm a s) permits writes rfl,
      .of_writing named (exec_csrrci rd uimm a s) permits writes rfl⟩
  case readOnly =>
    have reads : (rs1 != 0#5) = false := bne_eq_false_iff_eq.2 noSource
    exact ⟨.of_reading named (exec_csrrs rd rs1 a s) permits reads,
      .of_reading named (exec_csrrc rd rs1 a s) permits reads⟩
  case readOnlyImm =>
    have reads : (uimm != 0#5) = false := bne_eq_false_iff_eq.2 noField
    exact ⟨.of_reading named (exec_csrrsi rd uimm a s) permits reads,
      .of_reading named (exec_csrrci rd uimm a s) permits reads⟩

end Sys2Proof.Machine
end

section
/-! PROOFS. The system instructions: the calls and the privileged instructions that trap, the two returns, and the
removal of cached translations (46_system.md R360 to R366). -/

namespace Sys2Proof.Machine

/-! ### The instructions that raise -/

theorem Raises.of_raiseExc {i : Instr} {s : State} {e : Exc} {info : Word}
    (runs : exec i s = .next (raiseExc e info s)) : Raises i s e.code info := runs

/-- Settles O50: each mode's call has its own exception (46_system.md R361). -/
theorem callsAndBreakpointsTrap : Obligations.CallsAndBreakpointsTrap := by
  intro s
  have calls : Raises .ecall s (callFrom s.priv).code 0#32 := .of_raiseExc rfl
  have breaks : Raises .ebreak s Exc.breakpoint.code s.pc := .of_raiseExc rfl
  refine ⟨?_, breaks⟩
  cases mode : s.priv <;> (rw [mode] at calls; exact calls)

/-- An illegal instruction raises code 2, and its trap value is its own word, or 0 (60_exceptions.md R425). -/
theorem Raises.of_raiseIllegal {i : Instr} {s : State} {word : Word} (encoded : encode i = word)
    (runs : exec i s = .next (raiseIllegal (encode i) s)) :
    Raises i s 2 (if s.config.tvalIllegalIsInstr = true then word else 0#32) := by
  subst encoded
  exact runs

theorem exec_mret_of_not_machine {s : State} (below : s.priv ≠ .M) :
    exec .mret s = .next (raiseIllegal (encode .mret) s) := if_neg below

theorem exec_sret_of_user {s : State} (user : s.priv = .U) : exec .sret s = .next (raiseIllegal (encode .sret) s) :=
  if_pos user

theorem exec_wfi_of_user {s : State} (user : s.priv = .U) : exec .wfi s = .next (raiseIllegal (encode .wfi) s) :=
  if_pos user

theorem exec_sfenceVma_of_user {s : State} (rs1 rs2 : Reg) (user : s.priv = .U) :
    exec (.sfenceVma rs1 rs2) s = .next (raiseIllegal (encode (.sfenceVma rs1 rs2)) s) := if_pos user

theorem toNat_append_eq_add {n m : Nat} (high : BitVec n) (low : BitVec m) :
    (high ++ low).toNat = high.toNat * 2 ^ m + low.toNat := by
  rw [BitVec.toNat_append, ← Nat.shiftLeft_add_eq_or_of_lt low.isLt, Nat.shiftLeft_eq]

/-- The word of an SFENCE.VMA has its two register fields above the fixed bits (30_encoding.md R181). -/
theorem encode_sfenceVma (rs1 rs2 : Reg) : encode (.sfenceVma rs1 rs2) =
    BitVec.ofNat 32 (0x12000073 + rs2.toNat * 2 ^ 20 + rs1.toNat * 2 ^ 15) := by
  apply BitVec.eq_of_toNat_eq
  have := rs1.isLt
  have := rs2.isLt
  simp only [encode, encodeR, toNat_append_eq_add, BitVec.toNat_ofNat]
  omega

/-- Settles O52: below its mode each of the four is `raiseIllegal` of its own word. -/
theorem privilegedInstructionsAreIllegalBelow : Obligations.PrivilegedInstructionsAreIllegalBelow := by
  rintro s rs1 rs2 _ rfl
  exact ⟨fun below => .of_raiseIllegal (by decide) (exec_mret_of_not_machine below), fun user =>
    ⟨.of_raiseIllegal (by decide) (exec_sret_of_user user), .of_raiseIllegal (by decide) (exec_wfi_of_user user),
      .of_raiseIllegal (encode_sfenceVma rs1 rs2) (exec_sfenceVma_of_user rs1 rs2 user)⟩⟩

/-! ### The returns -/

/-- Two bits are the reserved value, or those of the mode they stand for (10_state.md R30). -/
theorem privOfBits_cases (b : BitVec 2) :
    (b = 0b10#2 ∧ privOfBits b = none) ∨ ∃ p, privOfBits b = some p ∧ p.bits = b := by
  have values : ∀ c : BitVec 2, c = 0b00#2 ∨ c = 0b01#2 ∨ c = 0b10#2 ∨ c = 0b11#2 := by decide
  obtain rfl | rfl | rfl | rfl := values b
  · exact .inr ⟨.U, rfl, rfl⟩
  · exact .inr ⟨.S, rfl, rfl⟩
  · exact .inl ⟨rfl, rfl⟩
  · exact .inr ⟨.M, rfl, rfl⟩

/-- The fields MRET writes stand at different places, so each keeps what it was given (46_system.md R364). -/
theorem statusLeaveM_getLsbD (w : Word) {j : Nat} (hj : j < 32) : (statusLeaveM w).getLsbD j =
    if j = 3 then w.getLsbD 7 else if j = 7 then true else if j ∈ [11, 12] then false else w.getLsbD j := by
  simp only [statusLeaveM, statusMPIE, withMIE, withMPIE, withMPP, setBit_getLsbD _ _ _ _ hj]
  have user : Priv.U.bits = 0b00#2 := rfl
  grind

/-- The fields SRET writes stand at different places (46_system.md R365). -/
theorem statusLeaveS_getLsbD (w : Word) {j : Nat} (hj : j < 32) : (statusLeaveS w).getLsbD j =
    if j = 1 then w.getLsbD 5 else if j = 5 then true else if j = 8 then false else w.getLsbD j := by
  simp only [statusLeaveS, statusSPIE, withSIE, withSPIE, withSPP, setBit_getLsbD _ _ _ _ hj]
  grind

section
variable {s : State} (machine : s.priv = .M)
include machine

theorem exec_mret_of_saved {p : Priv} (saved : privOfBits (statusMPP s.mstatus) = some p) :
    exec .mret s = .next { s.jump s.mepc with mstatus := statusLeaveM s.mstatus, priv := p } := by
  change execMret s = _
  rw [execMret, if_pos machine, returnFromM, saved]

theorem exec_mret_of_reserved (saved : privOfBits (statusMPP s.mstatus) = none) :
    exec .mret s = .fault .mppReserved := by
  change execMret s = _
  rw [execMret, if_pos machine, returnFromM, saved]

end

theorem exec_sret_of_privileged {s : State} (above : s.priv ≠ .U) : exec .sret s = .next (returnFromS s) :=
  if_neg above

/-- Settles O51: MRET returns to the mode of MPP unless that is reserved, SRET to the mode of SPP. -/
theorem returnsRestoreTheSavedState : Obligations.ReturnsRestoreTheSavedState := by
  intro s
  refine ⟨fun machine stored => ?mret, fun machine reserved => ?stops, fun above => ?sret⟩
  case mret =>
    obtain ⟨reserved, -⟩ | ⟨p, saved, bits⟩ := privOfBits_cases (statusMPP s.mstatus)
    · exact absurd reserved stored
    · exact ⟨_, exec_mret_of_saved machine saved, bits, ⟨rfl, rfl, rfl⟩, fun _ => rfl,
        fun _ => statusLeaveM_getLsbD s.mstatus, rfl⟩
  case stops => exact exec_mret_of_reserved machine (by rw [reserved]; rfl)
  case sret =>
    exact ⟨_, exec_sret_of_privileged above, rfl, ⟨rfl, rfl, rfl⟩, fun _ => rfl,
      fun _ => statusLeaveS_getLsbD s.mstatus, rfl⟩

/-! ### The removal of cached translations -/

theorem TlbEntry.covers_page_iff (vpn : BitVec 20) (pte va : Word) :
    (⟨vpn, pte, .page⟩ : TlbEntry).covers va = true ↔ vpn.toNat = va.toNat / 2 ^ 12 := by
  have := va.isLt
  change (vpn == va.extractLsb' 12 20) = true ↔ _
  rw [beq_iff_eq, BitVec.toNat_eq, toNat_field, Nat.mod_eq_of_lt (by omega)]

theorem TlbEntry.covers_megapage_iff (vpn : BitVec 20) (pte va : Word) :
    (⟨vpn, pte, .megapage⟩ : TlbEntry).covers va = true ↔ vpn.toNat / 2 ^ 10 = va.toNat / 2 ^ 22 := by
  have := va.isLt
  have := vpn.isLt
  change (vpn.extractLsb' 10 10 == va.extractLsb' 22 10) = true ↔ _
  rw [beq_iff_eq, BitVec.toNat_eq, toNat_field, toNat_field, Nat.mod_eq_of_lt (by omega), Nat.mod_eq_of_lt (by omega)]

/-- An entry translates the whole page of an address it translates. -/
theorem TlbEntry.covers_of_same_page (e : TlbEntry) {va wa : Word} (page : va.toNat / 2 ^ 12 = wa.toNat / 2 ^ 12)
    (h : e.covers va = true) : e.covers wa = true := by
  obtain ⟨vpn, pte, level⟩ := e
  cases level with
  | page =>
    rw [covers_page_iff] at h ⊢
    exact h.trans page
  | megapage =>
    rw [covers_megapage_iff] at h ⊢
    omega

theorem fenceRemoves_iff (s : State) (rs1 : Reg) (e : TlbEntry) :
    fenceRemoves s rs1 e = true ↔ rs1 = 0#5 ∨ e.covers (s.x rs1) = true := by
  rw [fenceRemoves, Bool.or_eq_true, beq_iff_eq]

/-- What a fence leaves of a TLB. -/
theorem mem_fenced_iff (s : State) (rs1 : Reg) (tlb : List TlbEntry) (e : TlbEntry) :
    e ∈ tlb.filter (fun e => !fenceRemoves s rs1 e) ↔ e ∈ tlb ∧ rs1 ≠ 0#5 ∧ ¬ e.covers (s.x rs1) = true := by
  rw [List.mem_filter, Bool.not_eq_true', Bool.eq_false_iff, ne_eq, fenceRemoves_iff, not_or]

@[simp] theorem fenceTlbs_itlb (s : State) (rs1 : Reg) :
    (fenceTlbs s rs1).itlb = s.itlb.filter fun e => !fenceRemoves s rs1 e := rfl
@[simp] theorem fenceTlbs_dtlb (s : State) (rs1 : Reg) :
    (fenceTlbs s rs1).dtlb = s.dtlb.filter fun e => !fenceRemoves s rs1 e := rfl

/-- Data accesses use the entries of the DTLB alone (20_memory.md R140). -/
theorem State.tlbCandidates_data (s : State) (va : Word) {k : AccessKind} (data : k ≠ .fetch) :
    s.tlbCandidates va k = s.dtlb.filter (·.covers va) := by
  rw [State.tlbCandidates, State.tlb, if_neg data, if_neg data, List.append_nil]

/-- After a fence no data access to an address it covers finds a cached entry (20_memory.md R162). -/
theorem fenced_tlbCandidates {s : State} {rs1 : Reg} {va : Word} {k : AccessKind} (data : k ≠ .fetch)
    (fenced : rs1 = 0#5 ∨ va.toNat / 2 ^ 12 = (s.x rs1).toNat / 2 ^ 12) :
    (fenceTlbs s rs1).advance.tlbCandidates va k = [] := by
  rw [State.tlbCandidates_data _ _ data, State.advance_dtlb, fenceTlbs_dtlb, List.filter_eq_nil_iff]
  intro e kept covers
  obtain ⟨-, addressed, uncovered⟩ := (mem_fenced_iff s rs1 s.dtlb e).1 kept
  obtain all | page := fenced
  · exact addressed all
  · exact uncovered (e.covers_of_same_page page covers)

theorem exec_sfenceVma_of_privileged {s : State} (rs1 rs2 : Reg) (above : s.priv ≠ .U) :
    exec (.sfenceVma rs1 rs2) s = .next (fenceTlbs s rs1).advance := if_neg above

/-- Settles O40: what stays cached is `mem_fenced_iff`, read at each level of an entry. -/
theorem fenceRemovesCachedTranslations : Obligations.FenceRemovesCachedTranslations := by
  intro s rs1 rs2 above
  refine ⟨_, exec_sfenceVma_of_privileged rs1 rs2 above, ⟨rfl, rfl, rfl⟩, fun _ => rfl, rfl, fun e => ?kept,
    fun va fenced => ⟨fenced_tlbCandidates (by decide) fenced, fenced_tlbCandidates (by decide) fenced⟩⟩
  case kept =>
    rw [State.advance_itlb, State.advance_dtlb, fenceTlbs_itlb, fenceTlbs_dtlb, mem_fenced_iff, mem_fenced_iff]
    obtain ⟨vpn, pte, level⟩ := e
    cases level with
    | page => rw [TlbEntry.covers_page_iff]; exact ⟨Iff.rfl, Iff.rfl⟩
    | megapage => rw [TlbEntry.covers_megapage_iff]; exact ⟨Iff.rfl, Iff.rfl⟩

end Sys2Proof.Machine
end

section
/-! PROOFS. An instruction traps or retires, and what one that retires leaves of the privileged state; with the events
of a boundary, everything that can change the mode (10_state.md R30, R32, R33, 60_exceptions.md R400, R430, R450, R451). -/

namespace Sys2Proof.Machine

/-! ### The privileged state -/

/-- The privileged state is the mode and the stored CSRs: nothing else of a state counts. -/
theorem PrivilegedSame.of_same {s t : State}
    (same : t = { s with
      regs := t.regs, pc := t.pc, mcycle := t.mcycle, minstret := t.minstret, reservation := t.reservation
      itlb := t.itlb, dtlb := t.dtlb, extIrqM := t.extIrqM, extIrqS := t.extIrqS, msip := t.msip, mtime := t.mtime
      mtimecmp := t.mtimecmp, mem := t.mem, fetchWindow := t.fetchWindow, itlbGhosts := t.itlbGhosts
      pcTrace := t.pcTrace, inputs := t.inputs, draws := t.draws, config := t.config }) : PrivilegedSame s t := by
  rw [same]
  exact ⟨rfl, rfl, rfl, rfl, rfl, rfl, rfl, rfl, rfl, rfl, rfl, rfl, rfl, rfl, rfl, rfl, rfl, rfl, rfl⟩

theorem PrivilegedSame.trans {s t u : State} (h : PrivilegedSame s t) (g : PrivilegedSame t u) :
    PrivilegedSame s u := by
  unfold PrivilegedSame at g
  simpa only [PrivilegedSame, g] using h

theorem Effects.priv {s u : State} (h : Effects s u) : u.priv = s.priv := by rw [h.same]

theorem Priv.bits_toNat_injective {p q : Priv} (h : p.bits.toNat = q.bits.toNat) : p = q := by
  revert h
  cases p <;> cases q <;> decide

/-- `t` completes the instruction whose accesses have left `u`: it retires, and the privileged state stays. -/
def CompletesFrom (u t : State) : Prop := RetiresTo u t t.pc ∧ PrivilegedSame u t

/-- Accesses before the completion neither retire anything nor touch the privileged state. -/
theorem CompletesFrom.of_effects {s u t : State} (accessed : Effects s u) (h : CompletesFrom u t) :
    CompletesFrom s t := by
  obtain ⟨⟨-, counted, traced⟩, same⟩ := h
  have count : u.minstret = s.minstret := by rw [accessed.same]
  have trace : u.pcTrace = s.pcTrace := by rw [accessed.same]
  rw [count] at counted
  rw [accessed.pc, trace] at traced
  have kept : PrivilegedSame s u := .of_same (by rw [accessed.same])
  exact ⟨⟨rfl, counted, traced⟩, kept.trans same⟩

theorem completesFrom_advance (s : State) : CompletesFrom s s.advance := ⟨⟨rfl, rfl, rfl⟩, .of_same rfl⟩

theorem completesFrom_writes (s : State) (rd : Reg) (v : Word) : CompletesFrom s (s.setX rd v).advance :=
  ⟨⟨rfl, rfl, rfl⟩, .of_same rfl⟩

theorem completesFrom_jump (s : State) (target : Word) : CompletesFrom s (s.jump target) :=
  ⟨⟨rfl, rfl, rfl⟩, .of_same rfl⟩

/-! ### The ends of an instruction -/

/-- Everything the instruction `i`, which has led from `s` to `t`, can have done to the privileged state. -/
inductive PrivilegedEnd (i : Instr) (s t : State) : Prop
  /-- A trap. -/
  | traps (trapped : TrapsOnly i s t)
  /-- Completed without touching the privileged state. -/
  | completes (completed : CompletesFrom s t)
  /-- A CSR instruction, which U-mode completes with no CSR (10_state.md R33). -/
  | accessesCsr (retires : RetiresTo s t t.pc) (above : s.priv ≠ .U) (mode : t.priv = s.priv)
  /-- MRET or SRET, to a mode that is not above the current one. -/
  | returns (returning : i = .mret ∨ i = .sret) (retires : RetiresTo s t t.pc) (above : s.priv ≠ .U)
    (mode : t.priv.bits.toNat ≤ s.priv.bits.toNat)

namespace PrivilegedEnd
variable {i : Instr} {s t : State}

theorem of_raiseExc (e : Exc) (info : Word) : PrivilegedEnd i s (raiseExc e info s) :=
  .traps (.of_raiseExc i s e info)

theorem of_writeBack {rd : Reg} {v : Word} (h : writeBack rd v s = .next t) : PrivilegedEnd i s t := by
  cases h
  exact .completes (completesFrom_writes s rd v)

theorem of_jumpAndLink (rd : Reg) (target : Word) : PrivilegedEnd i s (jumpAndLink rd target s) := by
  unfold jumpAndLink
  split
  · exact of_raiseExc _ _
  · exact .completes ⟨⟨rfl, rfl, rfl⟩, .of_same rfl⟩

theorem of_branchIf (cond : Bool) (offset : BitVec 13) : PrivilegedEnd i s (branchIf cond offset s) := by
  unfold branchIf
  split
  · split
    · exact of_raiseExc _ _
    · exact .completes (completesFrom_jump s _)
  · exact .completes (completesFrom_advance s)

/-- An instruction that makes an access traps on it, or completes after it. -/
theorem of_access {α : Type} {ea tval : Word} {k : AccessKind} {e₀ : Exc} {misaligned : Bool}
    {access : PAddr → State → Access α} {complete : α → State → State} (own : accessOf s i = some (ea, k))
    (raises_same : ∀ pa u e v, access pa u = .raise e v → v = u)
    (effects : ∀ pa u, (access pa u).leaves (Effects u)) (completes : ∀ v w, CompletesFrom w (complete v w))
    (h : (if misaligned then .next (raiseExc e₀ tval s)
      else ((translate s ea k).bind access).finish tval complete : Result) = .next t) : PrivilegedEnd i s t := by
  obtain trapped | ⟨pa, u, v, w, translated, accessed, rfl⟩ := trapsOnly_or_accessed own raises_same h
  · exact .traps trapped
  · have first := translate_effects s ea k
    have second := effects pa u
    rw [translated] at first
    rw [accessed] at second
    exact .completes (.of_effects (first.trans second) (completes v w))

/-- No CSR is accessible to U-mode, so a CSR instruction that completes runs above it (10_state.md R32, R33). -/
theorem above_user_of_permits {a : CsrAddr} {c : Csr} {willWrite : Bool}
    (permits : csrPermits s.priv a willWrite = true) (named : csrLookup s.config a = .present c) : s.priv ≠ .U := by
  intro user
  have forbidden := csrPermits_user_of_present named
  rw [csrPermits_iff, user] at permits
  rw [Bool.eq_false_iff, ne_eq, csrPermits_iff] at forbidden
  obtain ⟨level, -⟩ := permits
  exact forbidden ⟨level, by simp⟩

theorem of_csrInstruction {inst : Word} {rd : Reg} {a : CsrAddr} {willWrite : Bool} {f : Word → Word}
    (h : csrInstruction inst rd a willWrite f s = .next t) : PrivilegedEnd i s t := by
  unfold csrInstruction at h
  split at h
  · cases h; exact of_raiseExc _ _
  · next permits =>
    split at h
    · cases h; exact of_raiseExc _ _
    · cases h
    · next c named =>
      cases h
      have above := above_user_of_permits (by simpa using permits) named
      cases willWrite with
      | true =>
        unfold csrReadWrite
        rw [if_pos rfl, State.writeCsr_same]
        exact .accessesCsr ⟨rfl, rfl, rfl⟩ above rfl
      | false => exact .accessesCsr ⟨rfl, rfl, rfl⟩ above rfl

theorem of_execMret (h : execMret s = .next t) : PrivilegedEnd .mret s t := by
  unfold execMret returnFromM at h
  split at h
  · next machine =>
    split at h <;> cases h
    next p _ =>
    have most : p.bits.toNat ≤ s.priv.bits.toNat := by rw [machine]; cases p <;> decide
    exact .returns (.inl rfl) ⟨rfl, rfl, rfl⟩ (by simp [machine]) most
  · cases h; exact of_raiseExc _ _

theorem of_execSret (h : execSret s = .next t) : PrivilegedEnd .sret s t := by
  unfold execSret at h
  split at h
  · cases h; exact of_raiseExc _ _
  · next above =>
    cases h
    have most : (returnFromS s).priv.bits.toNat ≤ s.priv.bits.toNat := by
      change (if statusSPP s.mstatus then Priv.S else .U).bits.toNat ≤ _
      revert above
      cases s.priv <;> cases statusSPP s.mstatus <;> decide
    exact .returns (.inr rfl) ⟨rfl, rfl, rfl⟩ above most

/-- An instruction that is illegal in the current mode, or else completes in `u`. -/
theorem of_privileged {inst : Word} {illegal : Prop} [Decidable illegal] {u : State} (completed : CompletesFrom s u)
    (h : (if illegal then Host.Outcome.next (raiseIllegal inst s) else .next u : Result) = .next t) :
    PrivilegedEnd i s t := by
  split at h
  · cases h; exact of_raiseExc _ _
  · cases h; exact .completes completed

/-- What each instruction does to the privileged state, row by row. -/
theorem of_exec (h : exec i s = .next t) : PrivilegedEnd i s t := by
  cases i with
  | lui | auipc | addi | slti | sltiu | xori | ori | andi | slli | srli | srai | add | sub | sll | slt | sltu | xor
  | srl | sra | or | and | mul | mulh | mulhsu | mulhu | div | divu | rem | remu => exact of_writeBack h
  | jal | jalr => cases h; exact of_jumpAndLink _ _
  | beq | bne | blt | bge | bltu | bgeu => cases h; exact of_branchIf _ _
  | lb | lh | lw | lbu | lhu =>
    simp only [exec_lb, exec_lh, exec_lw, exec_lbu, exec_lhu] at h
    exact of_access rfl (fun _ _ _ _ => physLoad_raise) (fun _ _ => physLoad_effects ..)
      (fun _ w => completesFrom_writes w _ _) h
  | sb | sh | sw =>
    simp only [exec_sb, exec_sh, exec_sw] at h
    exact of_access rfl (fun _ _ _ _ => physStore_raise) (fun _ _ => physStore_effects ..)
      (fun _ w => completesFrom_advance w) h
  | fence => cases h; exact .completes (completesFrom_advance s)
  | lrW =>
    exact of_access rfl (fun _ _ _ _ => reservedLoad_raise)
      (fun _ _ => Access.bind_leaves (physLoad_effects ..) fun _ _ accessed => accessed)
      (fun _ _ => ⟨⟨rfl, rfl, rfl⟩, .of_same rfl⟩) h
  | scW =>
    exact of_access rfl (fun _ _ _ _ => conditionalStore_raise) (fun _ _ => conditionalStore_effects ..)
      (fun _ _ => ⟨⟨rfl, rfl, rfl⟩, .of_same rfl⟩) h
  | amoswapW | amoaddW | amoxorW | amoandW | amoorW | amominW | amomaxW | amominuW | amomaxuW =>
    exact of_access rfl (fun _ _ _ _ => readModifyWrite_raise) (fun _ _ => readModifyWrite_effects ..)
      (fun _ w => completesFrom_writes w _ _) h
  | csrrw | csrrs | csrrc | csrrwi | csrrsi | csrrci => exact of_csrInstruction h
  | ecall | ebreak => cases h; exact of_raiseExc _ _
  | sret => exact of_execSret h
  | mret => exact of_execMret h
  | wfi => exact of_privileged (completesFrom_advance s) h
  | sfenceVma rs1 => exact of_privileged (u := (fenceTlbs s rs1).advance) ⟨⟨rfl, rfl, rfl⟩, .of_same rfl⟩ h

/-- An instruction that goes on has retired, unless it trapped (60_exceptions.md R400, R430). -/
theorem traps_or_retires (last : PrivilegedEnd i s t) : TrapsOnly i s t ∨ RetiresTo s t t.pc := by
  cases last with
  | traps trapped => exact .inl trapped
  | completes completed => exact .inr completed.left
  | accessesCsr retires => exact .inr retires
  | returns _ retires => exact .inr retires

/-- In U-mode nothing but a trap touches the privileged state. -/
theorem of_user (last : PrivilegedEnd i s t) (user : s.priv = .U) : TrapsOnly i s t ∨ PrivilegedSame s t := by
  cases last with
  | traps trapped => exact .inl trapped
  | completes completed => exact .inr completed.right
  | accessesCsr _ above => exact absurd user above
  | returns _ _ above => exact absurd user above

/-- Apart from a trap, only a return changes the mode, and it lowers it (60_exceptions.md R451). -/
theorem of_mode_change (last : PrivilegedEnd i s t) (changed : t.priv ≠ s.priv) :
    TrapsOnly i s t ∨ (t.priv.bits.toNat < s.priv.bits.toNat ∧ (i = .mret ∨ i = .sret)) := by
  cases last with
  | traps trapped => exact .inl trapped
  | completes completed =>
    obtain ⟨-, mode, -⟩ := completed
    exact absurd mode changed
  | accessesCsr _ _ mode => exact absurd mode changed
  | returns returning _ _ mode =>
    exact .inr ⟨mode.lt_of_ne fun equal => changed (Priv.bits_toNat_injective equal), returning⟩

end PrivilegedEnd

/-- Settles O56: each instruction ends in one of the ways of `PrivilegedEnd`, a trap or retired. -/
theorem instructionsRetireOrOnlyTrap : Obligations.InstructionsRetireOrOnlyTrap := by
  intro i s t runs
  obtain trapped | ⟨-, counted, traced⟩ := (PrivilegedEnd.of_exec runs).traps_or_retires
  · exact .inr trapped
  · exact .inl ⟨counted, traced⟩

/-- Settles O58: of the ways of `PrivilegedEnd`, U-mode has only those that trap or leave the privileged state. -/
theorem userModeChangesNoPrivilegedState : Obligations.UserModeChangesNoPrivilegedState :=
  fun _ _ _ user runs => (PrivilegedEnd.of_exec runs).of_user user

/-! ### The mode from one boundary to the next -/

theorem applyEvent_priv (s : State) {e : EnvEvent} (notReset : e ≠ .reset) : (applyEvent s e).priv = s.priv := by
  cases e with
  | extIrqM | extIrqS | tick | softwareIrq => rfl
  | foreignWrite addr bytes => rw [applyEvent, foreignWrite_same]
  | foreignClintStore addr v => rw [applyEvent, foreignClintStore_same]
  | reset => exact absurd rfl notReset

/-- The events of a boundary keep the mode, or a reset among them has made it M (10_state.md R30). -/
theorem atBoundary_priv (s : State) : (atBoundary s).priv = s.priv ∨
    ((atBoundary s).priv = .M ∧ ∃ e ∈ s.inputs.headD [], e = .reset) := by
  have acted : (environment s).priv = s.priv ∨
      ((environment s).priv = .M ∧ ∃ e ∈ s.inputs.headD [], e = .reset) :=
    environment_keeps (P := fun u => u.priv = s.priv ∨ (u.priv = .M ∧ ∃ e ∈ s.inputs.headD [], e = .reset))
      (fun _ h => h) (fun u e coming h => by
        by_cases reset : e = .reset
        · subst reset
          exact .inr ⟨externalReset_priv _, _, coming, rfl⟩
        · rwa [applyEvent_priv u reset]) (.inl rfl)
  rwa [atBoundary, passCycles_same]

/-- Everything between two boundaries: an interrupt, a fetch that raises, or a fetched word that is executed
(00_scope.md R12). -/
theorem afterBoundary_next {s t : State} (h : afterBoundary s = .next t) :
    (∃ j : Interrupt, t = takeTrap true j.code s.pc 0#32 s) ∨
    (∃ e u, fetch s = .raise e u ∧ t = takeTrap false e.code u.pc u.pc u) ∨
    ∃ w u, fetch s = .done w u ∧ executeWord w u = .next t := by
  unfold afterBoundary at h
  split at h
  · next j _ => cases h; exact .inl ⟨j, rfl⟩
  · unfold instructionCycle at h
    split at h
    · next w u fetched => exact .inr (.inr ⟨w, u, fetched, h⟩)
    · next e u fetched => cases h; exact .inr (.inl ⟨e, u, fetched, rfl⟩)
    · cases h

/-- Settles O57: the boundary by `atBoundary_priv`, the instruction by `PrivilegedEnd`, and between them the fetch keeps
the mode. -/
theorem modeChangesOnlyByTrapReturnOrReset : Obligations.ModeChangesOnlyByTrapReturnOrReset := by
  refine ⟨fun i s t runs => (PrivilegedEnd.of_exec runs).of_mode_change, fun s t runs noReset changed => ?step,
    fun s changed => (atBoundary_priv s).resolve_left changed⟩
  case step =>
    have before : (atBoundary s).priv = s.priv :=
      (atBoundary_priv s).resolve_right fun ⟨_, e, coming, reset⟩ => noReset e coming reset
    obtain interrupted | failed | ⟨w, u, fetched, executed⟩ := afterBoundary_next runs
    · exact .inl interrupted
    · exact .inr (.inl failed)
    · obtain ⟨v, accessed, rfl⟩ := fetch_done fetched
      have mode : v.ageFetch.priv = s.priv := accessed.priv.trans before
      refine .inr (.inr ⟨w, _, fetched, mode, ?_⟩)
      cases decoded : decodeWord w with
      | none =>
        rw [executeWord_of_undecoded decoded] at executed
        cases executed
        exact .inl ⟨rfl, rfl⟩
      | some i =>
        rw [executeWord_of_decoded decoded] at executed
        have ended := (PrivilegedEnd.of_exec executed).of_mode_change (mode ▸ changed)
        exact .inr ⟨i, rfl, executed, ended.imp_right And.right⟩

end Sys2Proof.Machine
end

section
/-! PROOFS. A fetch that fails, and the accesses and fetches that a platform device would have to answer
(20_memory.md R107, R119, 60_exceptions.md R403, R413, R464; log 21). -/

namespace Sys2Proof.Machine

/-! ### The two ways a fetch raises -/

/-- Its translation raises, or `PhysAccessOK` refuses the address it gives (20_memory.md R119). -/
theorem fetch_raise_cases {s u : State} {e : Exc} (h : fetch s = .raise e u) :
    translate s s.pc .fetch = .raise e u ∨
      ∃ pa, translate s s.pc .fetch = .done pa u ∧ physTarget u.config pa 4 .fetch = none ∧
        e = .instructionAccessFault := by
  unfold fetch at h
  cases translated : translate s s.pc .fetch with
  | raise e' v => rw [translated] at h; cases h; exact .inl rfl
  | refused r => rw [translated] at h; cases h
  | done pa v =>
    rw [translated] at h
    simp only [Access.bind] at h
    split at h
    · next refused => cases h; exact .inr ⟨pa, rfl, refused, rfl⟩
    · cases h
    · cases h

theorem fetch_of_refused {s u : State} {pa : PAddr} (done : translate s s.pc .fetch = .done pa u)
    (refused : physTarget u.config pa 4 .fetch = none) : fetch s = .raise .instructionAccessFault u := by
  simp only [fetch, done, Access.bind, refused]

/-- With nothing pending, a fetch that raises traps with the pc of the instruction it could not fetch. -/
theorem afterBoundary_of_fetch_raises {s u : State} {e : Exc} (quiet : s.pendingInterrupt = none)
    (h : fetch s = .raise e u) : afterBoundary s = .next (takeTrap false e.code s.pc s.pc u) := by
  rw [afterBoundary_of_quiet quiet]
  simp only [instructionCycle, h, raiseExc, (fetch_raise h).pc]

/-- Settles O9: the two ways of `fetch_raise_cases`, of which an untranslated fetch has only the second. -/
theorem failedFetchesTrap : Obligations.FailedFetchesTrap := by
  rintro s b rfl quiet
  refine ⟨fun e u raises => ⟨afterBoundary_of_fetch_raises quiet raises, ?ways⟩, fun off refused => ?refused,
    fun off permitted e u raises => ?permitted⟩
  case ways =>
    obtain raised | ⟨pa, done, refused, rfl⟩ := fetch_raise_cases raises
    · have on : (atBoundary s).translates = true := by
        by_contra off
        rw [translate_off (Bool.not_eq_true _ ▸ off)] at raised
        cases raised
      exact .inl ⟨raised, translate_raise_trace raised, on, (translate_raise_code raised).symm⟩
    · exact .inr ⟨pa, done, translate_done_trace done, (physAccessOk_eq_false_iff ..).2 refused, rfl⟩
  case refused =>
    rw [physAccessOk_eq_false_iff] at refused
    exact afterBoundary_of_fetch_raises quiet (fetch_of_refused (translate_off off _ _) refused)
  case permitted =>
    have translated := translate_off off (atBoundary s).pc .fetch
    obtain raised | ⟨pa, done, refused, -⟩ := fetch_raise_cases raises
    · rw [translated] at raised
      cases raised
    · rw [translated] at done
      cases done
      simp [physAccessOk, refused] at permitted

/-! ### Platform devices -/

section
variable {s : State} {pa : PAddr} {w : Width}

theorem physLoad_of_device (device : physTarget s.config pa w.bytes .load = some .device) (k : AccessKind) :
    physLoad s pa w k = .refused .platformDevice := by
  simp only [physLoad, device, physRead]

theorem physStore_of_device (device : physTarget s.config pa w.bytes .store = some .device) (v : Word) :
    physStore s pa w v = .refused .platformDevice := by
  simp only [physStore, device, storeTo, physWrite]

end

section
variable {i : Instr} {s : State} {ea : Word}

/-- An instruction is refused at a device when its access is. -/
theorem RefusedAtDevice.of_access {α : Type} {n : Nat} {k : AccessKind} {access : PAddr → State → Access α}
    {complete : α → State → State} (runs : exec i s = ((translate s ea k).bind access).finish ea complete)
    (refuses : ∀ pa u, physTarget u.config pa n k = some .device → access pa u = .refused .platformDevice) :
    RefusedAtDevice i s ea n k := by
  intro pa u done device
  rw [runs, done, Access.bind, refuses pa u device]
  rfl

variable {rd : Reg} {v : Word} {w : Width}

theorem RefusedAtDevice.of_loadInto {f : Word → Word} (runs : exec i s = loadInto rd ea w f s)
    (onWidth : aligned ea w = true) : RefusedAtDevice i s ea w.bytes .load := by
  simp only [loadInto, memRead, onWidth, Bool.not_true, Bool.false_eq_true, if_false] at runs
  exact .of_access runs fun _ _ device => physLoad_of_device device .load

theorem RefusedAtDevice.of_storeFrom (runs : exec i s = storeFrom ea w v s) (onWidth : aligned ea w = true) :
    RefusedAtDevice i s ea w.bytes .store := by
  simp only [storeFrom, memWrite, onWidth, Bool.not_true, Bool.false_eq_true, if_false] at runs
  exact .of_access runs fun _ _ device => physStore_of_device device v

theorem RefusedAtDevice.of_loadReserved (runs : exec i s = loadReserved rd ea s) (word : aligned ea .word = true) :
    RefusedAtDevice i s ea 4 .load := by
  simp only [loadReserved, word, Bool.not_true, Bool.false_eq_true, if_false] at runs
  refine .of_access runs fun pa u device => ?_
  rw [physLoad_of_device (w := .word) device]
  rfl

end

/-- Settles O27: a device answers no shape of an access, and no fetch. -/
theorem platformDevicesAreRefused : Obligations.PlatformDevicesAreRefused := by
  intro s rd rs1 rs2 imm aq rl ea
  refine ⟨?loadsAndStores, ?reserved, fun pa u done device => ?fetch⟩
  case loadsAndStores =>
    rintro rfl
    refine ⟨?lb, ?lbu, ?sb, fun even => ?halves, fun word => ?words⟩
    case lb => exact .of_loadInto (w := .byte) (exec_lb ..) rfl
    case lbu => exact .of_loadInto (w := .byte) (exec_lbu ..) rfl
    case sb => exact .of_storeFrom (w := .byte) (exec_sb ..) rfl
    case halves =>
      rw [← aligned_half_iff] at even
      exact ⟨.of_loadInto (exec_lh ..) even, .of_loadInto (exec_lhu ..) even, .of_storeFrom (exec_sh ..) even⟩
    case words =>
      rw [← aligned_word_iff] at word
      exact ⟨.of_loadInto (exec_lw ..) word, .of_storeFrom (exec_sw ..) word⟩
  case reserved =>
    rintro rfl word
    exact .of_loadReserved (exec_lrW ..) ((aligned_word_iff _).2 word)
  case fetch => simp only [instructionCycle, fetch, done, Access.bind, device]

end Sys2Proof.Machine
end

section
/-! PROOFS. The CLINT words answer the word accesses: each instruction's access at one of them, in the terms of what the
word holds and of what a store leaves in it (20_memory.md R104, 44_a_extension.md R312 to R326,
60_exceptions.md R459 to R462). -/

namespace Sys2Proof.Machine

/-! ### Completing -/

theorem Leaves.of_advance {i : Instr} {s w : State} (runs : exec i s = .next w.advance) : Leaves i s w :=
  ⟨_, runs, ⟨rfl, rfl, rfl⟩, rfl⟩

theorem LeavesAndWrites.of_advance {i : Instr} {s w : State} {rd : Reg} {v : Word}
    (runs : exec i s = .next (w.setX rd v).advance) : LeavesAndWrites i s w rd v :=
  ⟨_, runs, w.setX_becomes rd v, ⟨rfl, rfl, rfl⟩, rfl⟩

/-! ### An access at a CLINT word -/

/-- The state after the hart's own store of `v` to the CLINT word `r` at `a`. -/
def State.clintUpdated (s : State) (r : ClintReg) (a : Nat) (v : Word) : State :=
  { clintStored s r v with reservation := reservationAfterStore s a 4 }

/-- A CLINT word is no memory, so a store to it leaves the fetch window alone. -/
theorem storeTo_clint (s : State) (r : ClintReg) (pa : PAddr) (v : Word) :
    storeTo s (.clint r) pa .word v = .done () (s.clintUpdated r pa.toNat v) := by
  have unnoted : s.noteStore (.clint r) pa.toNat Width.word.bytes = s := by simp [State.noteStore]
  rw [storeTo, unnoted]
  simp only [physWrite, clintWrite_reservation, reservationAfterOwnWrite_eq, Width.bytes, State.clintUpdated]

section
variable {s u : State} {ea : Word} {k : AccessKind} {r : ClintReg} {pa : PAddr}

theorem reachesClint.translated (h : reachesClint s ea k r pa u) : translate s ea k = .done pa u := h.1

theorem physLoad_of_reachesClint (h : reachesClint s ea k r pa u) (flt : AccessKind) :
    physLoad u pa .word flt = .done (clintWord u r) u := by
  have answered : physTarget u.config pa Width.word.bytes .load = _ := reachesClint_target h .load (by decide)
  simp only [physLoad, answered, physRead, clintRead_eq]

theorem physStore_of_reachesClint (h : reachesClint s ea k r pa u) (v : Word) :
    physStore u pa .word v = .done () (u.clintUpdated r pa.toNat v) := by
  have answered : physTarget u.config pa Width.word.bytes .store = _ := reachesClint_target h .store (by decide)
  simp only [physStore, answered, storeTo_clint]

theorem conditionalStore_of_reachesClint (h : reachesClint s ea k r pa u) (v : Word) :
    conditionalStore u pa v =
      if u.reservedAt pa then .done 0#32 (u.clintUpdated r pa.toNat v) else .done 1#32 u := by
  simp only [conditionalStore, reachesClint_target h .store (by decide), storeTo_clint, Access.bind]

theorem readModifyWrite_of_reachesClint (h : reachesClint s ea k r pa u) (f : Word → Word) :
    readModifyWrite u pa f = .done (clintWord u r) (u.clintUpdated r pa.toNat (f (clintWord u r))) := by
  simp only [readModifyWrite, reachesClint_target h .load (by decide), reachesClint_target h .store (by decide),
    physRead, clintRead_eq, storeTo_clint, Access.bind]

end

/-! ### The instructions -/

section
variable {i : Instr} {s u : State} {rd : Reg} {ea v : Word} {r : ClintReg} {pa : PAddr}
  (word : aligned ea .word = true)
include word

theorem LeavesAndWrites.of_clintLoad (runs : exec i s = loadInto rd ea .word id s)
    (h : reachesClint s ea .load r pa u) : LeavesAndWrites i s u rd (clintWord u r) := by
  refine .of_advance (runs.trans ?_)
  simp [loadInto, word, memRead, h.translated, Access.bind, physLoad_of_reachesClint h, Access.finish]

theorem Leaves.of_clintStore (runs : exec i s = storeFrom ea .word v s) (h : reachesClint s ea .store r pa u) :
    Leaves i s (u.clintUpdated r pa.toNat v) := by
  refine .of_advance (runs.trans ?_)
  simp [storeFrom, word, memWrite, h.translated, Access.bind, physStore_of_reachesClint h, Access.finish]

theorem LeavesAndWrites.of_clintReserve (runs : exec i s = loadReserved rd ea s)
    (h : reachesClint s ea .load r pa u) :
    LeavesAndWrites i s { u with reservation := ⟨true, pa.setWidth 32⟩ } rd (clintWord u r) := by
  refine .of_advance (runs.trans ?_)
  simp [loadReserved, word, h.translated, Access.bind, physLoad_of_reachesClint h, Access.finish]

section
variable (runs : exec i s = storeConditional rd ea v s) (h : reachesClint s ea .store r pa u)
include runs h

theorem LeavesAndWrites.of_clintConditional_reserved (reserved : u.reservation = ⟨true, pa.setWidth 32⟩) :
    LeavesAndWrites i s { clintStored u r v with reservation := ⟨false, u.reservation.addr⟩ } rd 0#32 := by
  rw [← reservedAt_iff] at reserved
  have dropped : (u.clintUpdated r pa.toNat v).dropReservation =
      { clintStored u r v with reservation := ⟨false, u.reservation.addr⟩ } := by
    rw [State.clintUpdated, ← reservationAfterOwnWrite_eq, State.dropReservation]
    simp only [reservationAfterOwnWrite_addr]
  refine .of_advance (runs.trans ?_)
  simp [storeConditional, word, h.translated, Access.bind, conditionalStore_of_reachesClint h, reserved, dropped,
    Access.finish]

theorem LeavesAndWrites.of_clintConditional_unreserved (unreserved : u.reservation ≠ ⟨true, pa.setWidth 32⟩) :
    LeavesAndWrites i s { u with reservation := ⟨false, u.reservation.addr⟩ } rd 1#32 := by
  rw [ne_eq, ← reservedAt_iff] at unreserved
  refine .of_advance (w := u.dropReservation) (runs.trans ?_)
  simp [storeConditional, word, h.translated, Access.bind, conditionalStore_of_reachesClint h, unreserved,
    Access.finish]

end

/-- An AMO writes `new` to the CLINT word, when its operation makes `new` of the word and `rs2`. -/
theorem LeavesAndWrites.of_clintAtomic {op : Word → Word → Word} {new : Word}
    (runs : exec i s = atomicOp rd ea v op s) (h : reachesClint s ea .store r pa u)
    (value : op (clintWord u r) v = new) : LeavesAndWrites i s (u.clintUpdated r pa.toNat new) rd (clintWord u r) := by
  refine .of_advance (runs.trans ?_)
  simp [atomicOp, word, h.translated, Access.bind, readModifyWrite_of_reachesClint h, value, Access.finish]

end

/-- The AMOs as `atomicOp` of an operation that gives the word listed for each (44_a_extension.md R318 to R326). -/
theorem exec_of_mem_amoResults {s : State} {rd rs1 rs2 : Reg} {aq rl : Bool} {old : Word} {p : Instr × Word}
    (h : p ∈ amoResults rd rs1 rs2 aq rl old (s.x rs2)) :
    ∃ op, exec p.1 s = atomicOp rd (s.x rs1) (s.x rs2) op s ∧ op old (s.x rs2) = p.2 := by
  simp only [amoResults, List.mem_cons, List.not_mem_nil, or_false] at h
  obtain rfl | rfl | rfl | rfl | rfl | rfl | rfl | rfl | rfl := h
  · exact ⟨fun _ src => src, rfl, rfl⟩
  · exact ⟨(· + ·), rfl, add_eq_ofNat ..⟩
  · exact ⟨(· ^^^ ·), rfl, rfl⟩
  · exact ⟨(· &&& ·), rfl, rfl⟩
  · exact ⟨(· ||| ·), rfl, rfl⟩
  · exact ⟨minSigned, rfl, minSigned_eq_ofInt ..⟩
  · exact ⟨maxSigned, rfl, maxSigned_eq_ofInt ..⟩
  · exact ⟨minUnsigned, rfl, minUnsigned_eq_ofNat ..⟩
  · exact ⟨maxUnsigned, rfl, maxUnsigned_eq_ofNat ..⟩

/-- Settles O28: each instruction is one of the shapes above. -/
theorem clintWordsAnswerWordAccesses : Obligations.ClintWordsAnswerWordAccesses := by
  rintro s u rd rs1 rs2 imm aq rl r pa ea _ rfl word
  rw [← aligned_word_iff] at word
  refine ⟨?loadsAndStores, ?atomics⟩
  case loadsAndStores =>
    rintro rfl
    exact ⟨fun h => .of_clintLoad word (exec_lw ..) h, fun h => .of_clintStore word (exec_sw ..) h⟩
  case atomics =>
    rintro rfl
    refine ⟨fun h => .of_clintReserve word (exec_lrW ..) h, fun h =>
      ⟨.of_clintConditional_reserved word (exec_scW ..) h, .of_clintConditional_unreserved word (exec_scW ..) h,
        fun p listed => ?amos⟩⟩
    case amos =>
      obtain ⟨op, runs, value⟩ := exec_of_mem_amoResults listed
      exact .of_clintAtomic word runs h value

end Sys2Proof.Machine
end

section
/-! PROOFS. Trap entry register by register and its vector, and the MRET that undoes a trap into M-mode
(60_exceptions.md R431 to R436, 46_system.md R364). -/

namespace Sys2Proof.Machine

/-! ### What is saved -/

/-- A code lies below the bit that marks an interrupt (10_state.md R45). -/
theorem causeWord_toNat (interrupt : Bool) {code : Nat} (h : code < 32) :
    (causeWord interrupt code).toNat = (if interrupt = true then 2 ^ 31 else 0) + code := by
  revert code
  cases interrupt <;> decide

/-- The trap is handled in S-mode (60_exceptions.md R433). -/
theorem delegated_iff (s : State) (interrupt : Bool) (code : Nat) : s.delegated interrupt code = true ↔
    s.priv ≠ .M ∧ (if interrupt = true then s.mideleg else s.medeleg).getLsbD code = true := by
  cases interrupt <;> simp [State.delegated]

/-- The fields trap entry to M-mode writes stand at different places (60_exceptions.md R431). -/
theorem statusEnterM_getLsbD (w : Word) (p : Priv) {j : Nat} (hj : j < 32) : (statusEnterM w p).getLsbD j =
    if j = 7 then w.getLsbD 3 else if j = 3 then false
    else if j = 11 then decide (p ≠ .U) else if j = 12 then decide (p = .M) else w.getLsbD j := by
  have low : p.bits.getLsbD 0 = decide (p ≠ .U) := by cases p <;> rfl
  have high : p.bits.getLsbD 1 = decide (p = .M) := by cases p <;> rfl
  simp only [statusEnterM, statusMIE, withMIE, withMPIE, withMPP, setBit_getLsbD _ _ _ _ hj, low, high]
  grind

/-- The fields trap entry to S-mode writes stand at different places (60_exceptions.md R431). -/
theorem statusEnterS_getLsbD (w : Word) (p : Priv) {j : Nat} (hj : j < 32) : (statusEnterS w p).getLsbD j =
    if j = 5 then w.getLsbD 1 else if j = 1 then false
    else if j = 8 then decide (p = .S) else w.getLsbD j := by
  have mode : (p == .S) = decide (p = .S) := by cases p <;> rfl
  simp only [statusEnterS, statusSIE, withSIE, withSPIE, withSPP, setBit_getLsbD _ _ _ _ hj, mode]
  grind

/-- Settles O48: the two ends of trap entry are `takeTrap_toS` and `takeTrap_toM`. -/
theorem trapEntrySavesAndRedirects : Obligations.TrapEntrySavesAndRedirects := by
  rintro s t interrupt code epc tval codes rfl
  rw [← delegated_iff]
  refine ⟨fun handledInS => ?toS, fun handledInM => ?toM, ?given, ?unmoved⟩
  case toS =>
    rw [takeTrap_toS _ _ _ _ _ handledInS]
    exact ⟨rfl, causeWord_toNat interrupt codes, rfl, rfl, rfl, fun _ => statusEnterS_getLsbD s.mstatus s.priv, rfl⟩
  case toM =>
    rw [takeTrap_toM _ _ _ _ _ (Bool.not_eq_true _ ▸ handledInM)]
    exact ⟨rfl, causeWord_toNat interrupt codes, rfl, rfl, rfl, fun _ => statusEnterM_getLsbD s.mstatus s.priv, rfl⟩
  case given => rw [takeTrap_reservation]
  case unmoved => rw [takeTrap_reservation]

/-! ### Where it goes -/

/-- BASE is the vector without its MODE (10_state.md R40). -/
theorem tvecBase_toNat (tvec : Word) : (tvecBase tvec).toNat = tvec.toNat - tvec.toNat % 4 := by
  have split : tvecBase tvec = tvec.extractLsb' 2 30 ++ 0#2 := by
    apply BitVec.eq_of_getLsbD_eq
    intro j hj
    rw [tvecBase, BitVec.getLsbD_and, tvecBaseMask_bits j hj, BitVec.getLsbD_append]
    by_cases mode : j < 2
    · simp [mode, Nat.not_le.2 mode]
    · have place : j - 2 < 30 ∧ 2 + (j - 2) = j := by omega
      simp [mode, Nat.not_lt.1 mode, place]
  have := tvec.isLt
  rw [split, toNat_append_eq_add, toNat_field, BitVec.toNat_ofNat]
  omega

section
variable (c : Config) (tvec : Word) (interrupt : Bool) (code : Nat)

theorem trapVector_direct (direct : tvec.toNat % 4 = 0) : trapVector c tvec interrupt code = tvec := by
  have mode : tvec.extractLsb' 0 2 ≠ 0b01#2 := by
    rw [ne_eq, BitVec.toNat_eq, toNat_field, BitVec.toNat_ofNat]
    omega
  rw [trapVector, if_neg fun h => mode h.1]
  apply BitVec.eq_of_toNat_eq
  rw [tvecBase_toNat, direct, Nat.sub_zero]

/-- In Vectored mode: with four times the code for an interrupt, and for an exception by the parameter of
92_eei_decisions.md D17. -/
theorem trapVector_vectored (vectored : tvec.toNat % 4 = 1) : trapVector c tvec interrupt code =
    if interrupt = true ∨ c.vectoredSyncExceptions = true then BitVec.ofNat 32 (tvec.toNat - 1 + 4 * code)
    else BitVec.ofNat 32 (tvec.toNat - 1) := by
  have mode : tvec.extractLsb' 0 2 = 0b01#2 := by
    rw [BitVec.toNat_eq, toNat_field, BitVec.toNat_ofNat]
    omega
  have base : tvecBase tvec = BitVec.ofNat 32 (tvec.toNat - 1) := by
    rw [← vectored, ← tvecBase_toNat, BitVec.ofNat_toNat, BitVec.setWidth_eq]
  simp only [trapVector, mode, true_and, base, BitVec.ofNat_add, BitVec.ofNat_mul]

end

/-- Settles O49: MODE 0 and MODE 1 are the two lemmas above. -/
theorem vectorsFollowTheMode : Obligations.VectorsFollowTheMode := by
  intro c tvec interrupt code
  refine ⟨trapVector_direct c tvec interrupt code, fun vectored interrupts => ?interrupt,
    fun vectored exception => ?exception⟩
  case interrupt => rw [trapVector_vectored c tvec interrupt code vectored, if_pos (.inl interrupts)]
  case exception =>
    rw [trapVector_vectored c tvec interrupt code vectored]
    simp only [exception, Bool.false_eq_true, false_or]

/-! ### There and back -/

/-- MPP, bit by bit (10_state.md R34). -/
theorem statusMPP_eq_iff (w : Word) (b : BitVec 2) :
    statusMPP w = b ↔ w.getLsbD 11 = b.getLsbD 0 ∧ w.getLsbD 12 = b.getLsbD 1 := by
  have bit0 : (statusMPP w).getLsbD 0 = w.getLsbD 11 := by simp [statusMPP]
  have bit1 : (statusMPP w).getLsbD 1 = w.getLsbD 12 := by simp [statusMPP]
  rw [← bit0, ← bit1]
  generalize statusMPP w = a
  revert a b
  decide

theorem statusMPP_statusEnterM (w : Word) (p : Priv) : statusMPP (statusEnterM w p) = p.bits := by
  rw [statusMPP_eq_iff, statusEnterM_getLsbD _ _ (by decide), statusEnterM_getLsbD _ _ (by decide)]
  cases p <;> exact ⟨rfl, rfl⟩

theorem statusMPP_statusLeaveM (w : Word) : statusMPP (statusLeaveM w) = 0b00#2 := by
  rw [statusMPP_eq_iff, statusLeaveM_getLsbD _ (by decide), statusLeaveM_getLsbD _ (by decide)]
  exact ⟨rfl, rfl⟩

theorem privOfBits_bits (p : Priv) : privOfBits p.bits = some p := by cases p <;> rfl

/-- Settles O53: the entry saves the mode, the enable and the pc in the fields MRET takes them from. -/
theorem trapThenReturnRestoresTheMode : Obligations.TrapThenReturnRestoresTheMode := by
  rintro s t interrupt code tval notDelegated rfl
  rw [← delegated_iff, Bool.not_eq_true] at notDelegated
  have saved : privOfBits (statusMPP (statusEnterM s.mstatus s.priv)) = some s.priv := by
    rw [statusMPP_statusEnterM, privOfBits_bits]
  have enable : (statusLeaveM (statusEnterM s.mstatus s.priv)).getLsbD 3 = s.mstatus.getLsbD 3 := by
    rw [statusLeaveM_getLsbD _ (by decide), if_pos rfl, statusEnterM_getLsbD _ _ (by decide), if_pos rfl]
  have previous : (statusLeaveM (statusEnterM s.mstatus s.priv)).getLsbD 7 = true := by
    rw [statusLeaveM_getLsbD _ (by decide), if_neg (by decide), if_pos rfl]
  rw [takeTrap_toM _ _ _ _ _ notDelegated]
  exact ⟨_, exec_mret_of_saved rfl saved, rfl, rfl, enable, previous, statusMPP_statusLeaveM _, rfl, rfl⟩

end Sys2Proof.Machine
end

section
/-! PROOFS. Which interrupts are takeable, and the order in which they are taken (60_exceptions.md R443, R444). -/

namespace Sys2Proof.Machine

/-- What the current mode lets through, for a target in S and for one in M (60_exceptions.md R443). -/
theorem globallyEnabled_iff (s : State) (targetS : Bool) : s.globallyEnabled targetS = true ↔
    if targetS = true then (s.priv = .S ∧ s.mstatus.getLsbD 1 = true) ∨ s.priv = .U
    else (s.priv = .M ∧ s.mstatus.getLsbD 3 = true) ∨ s.priv = .S ∨ s.priv = .U := by
  cases mode : s.priv <;> cases targetS <;> simp [State.globallyEnabled, mode, statusMIE, statusSIE]

/-- Settles O54: `takeable` is the conjunction of the three conditions. -/
theorem takeableInterruptsAreThoseOfTheRule : Obligations.TakeableInterruptsAreThoseOfTheRule := by
  intro s i
  rw [State.takeable, Bool.and_eq_true, Bool.and_eq_true, globallyEnabled_iff, State.targetsS]
  exact ⟨fun ⟨⟨through, enabled⟩, pending⟩ => ⟨pending, enabled, through⟩,
    fun ⟨pending, enabled, through⟩ => ⟨⟨through, enabled⟩, pending⟩⟩

/-! ### The first of a list -/

/-- In a list in the strict order of a rank, the first element with a property is the one of least rank. -/
theorem find?_eq_some_iff_of_ranked {α : Type} {l : List α} {rank : α → Nat}
    (ranked : l.Pairwise fun a b => rank a < rank b) (p : α → Bool) (a : α) :
    l.find? p = some a ↔ a ∈ l ∧ p a = true ∧ ∀ b ∈ l, p b = true → rank a ≤ rank b := by
  induction l with
  | nil => simp
  | cons x l ih =>
    obtain ⟨least, ranked⟩ := List.pairwise_cons.1 ranked
    cases hx : p x with
    | true =>
      rw [List.find?_cons_of_pos hx, Option.some.injEq]
      constructor
      · rintro rfl
        refine ⟨List.mem_cons_self, hx, fun b hb _ => ?_⟩
        obtain rfl | hb := List.mem_cons.1 hb
        · exact Nat.le_refl _
        · exact (least b hb).le
      · rintro ⟨ha, -, lowest⟩
        obtain same | ha := List.mem_cons.1 ha
        · exact same.symm
        · exact absurd (lowest x List.mem_cons_self hx) (Nat.not_le.2 (least a ha))
    | false =>
      have other : ∀ b, p b = true → b ≠ x := by rintro b hb rfl; simp [hx] at hb
      rw [List.find?_cons_of_neg (by simp [hx]), ih ranked]
      constructor
      · rintro ⟨ha, pa, lowest⟩
        exact ⟨List.mem_cons_of_mem x ha, pa, fun b hb pb => lowest b (List.mem_of_ne_of_mem (other b pb) hb) pb⟩
      · rintro ⟨ha, pa, lowest⟩
        exact ⟨List.mem_of_ne_of_mem (other a pa) ha, pa, fun b hb => lowest b (List.mem_cons_of_mem x hb)⟩

/-! ### The order of the interrupts -/

/-- The place of an interrupt among all of them: targets in M before targets in S, and in the source's order within a
target (60_exceptions.md R444). -/
def State.interruptRank (s : State) (i : Interrupt) : Nat := (if s.targetsS i then 6 else 0) + interruptPlace i

theorem interruptPlace_lt (i : Interrupt) : interruptPlace i < 6 := by cases i <;> decide

theorem interruptOrder_ranked : interruptOrder.Pairwise fun i j => interruptPlace i < interruptPlace j := by decide

theorem mem_interruptOrder (i : Interrupt) : i ∈ interruptOrder := by cases i <;> decide

/-- The interrupts in the order in which they are tested. -/
def State.interruptsInOrder (s : State) : List Interrupt :=
  (interruptOrder.filter fun i => !s.targetsS i) ++ interruptOrder.filter s.targetsS

theorem pendingInterrupt_eq (s : State) : s.pendingInterrupt = s.interruptsInOrder.find? s.takeable := rfl

theorem mem_interruptsInOrder (s : State) (i : Interrupt) : i ∈ s.interruptsInOrder := by
  cases target : s.targetsS i <;> simp [State.interruptsInOrder, mem_interruptOrder, target]

theorem interruptsInOrder_ranked (s : State) :
    s.interruptsInOrder.Pairwise fun i j => s.interruptRank i < s.interruptRank j := by
  refine List.pairwise_append.2 ⟨?inM, ?inS, fun i hi j hj => ?across⟩
  case inM =>
    refine (interruptOrder_ranked.filter _).imp_of_mem fun hi hj before => ?_
    simp only [List.mem_filter, Bool.not_eq_true'] at hi hj
    simpa [State.interruptRank, hi, hj] using before
  case inS =>
    refine (interruptOrder_ranked.filter _).imp_of_mem fun hi hj before => ?_
    simp only [List.mem_filter] at hi hj
    simpa [State.interruptRank, hi, hj] using before
  case across =>
    have := interruptPlace_lt i
    simp only [List.mem_filter, Bool.not_eq_true'] at hi hj
    simp only [State.interruptRank, hi, hj, Bool.false_eq_true, if_false, if_true]
    omega

theorem interruptRank_le_iff (s : State) (i j : Interrupt) : s.interruptRank i ≤ s.interruptRank j ↔
    (s.targetsS j = false → s.targetsS i = false) ∧
      (s.targetsS j = s.targetsS i → interruptPlace i ≤ interruptPlace j) := by
  have := interruptPlace_lt i
  have := interruptPlace_lt j
  cases hi : s.targetsS i <;> cases hj : s.targetsS j <;> simp [State.interruptRank, hi, hj] <;> omega

/-- Settles O55: the list tested is in the order of `interruptRank` and holds every interrupt. -/
theorem interruptsAreTakenInOrder : Obligations.InterruptsAreTakenInOrder := by
  intro s
  rw [pendingInterrupt_eq]
  refine ⟨fun i => ?first, ?none⟩
  case first =>
    rw [find?_eq_some_iff_of_ranked (interruptsInOrder_ranked s)]
    simp only [mem_interruptsInOrder, true_and, true_imp_iff, interruptRank_le_iff, State.targetsS]
  case none => simp only [List.find?_eq_none, mem_interruptsInOrder, true_imp_iff, Bool.not_eq_true]

end Sys2Proof.Machine
end

section
/-! PROOFS. What the reset input leaves: the values the spec gives, the memory but for a store cut short, and no
interrupt to take (70_reset_and_hazards.md R480 to R483, 93_implementation_defined.md U19). -/

namespace Sys2Proof.Machine

/-- With the two bits that select Sv32 in either layout clear, translation is off (10_state.md R55). -/
theorem sv32Selected_of_clear {satp : Word} (bit30 : satp.getLsbD 30 = false) (bit31 : satp.getLsbD 31 = false)
    (c : Config) : sv32Selected c satp = false := by
  unfold sv32Selected
  split
  · exact bit31
  · rw [beq_eq_false_iff_ne]
    intro selected
    have low : satp.getLsbD 30 = true := by simpa using congrArg (BitVec.getLsbD · 0) selected
    rw [bit30] at low
    cases low

/-- In M-mode an interrupt with its target in M needs MIE, and any other is not let through (60_exceptions.md R443). -/
theorem pendingInterrupt_of_disabled {s : State} (machine : s.priv = .M) (disabled : s.mstatus.getLsbD 3 = false) :
    s.pendingInterrupt = none := by
  rw [(interruptsAreTakenInOrder s).2]
  intro j
  have closed : s.globallyEnabled (s.targetsS j) = false := by
    simp only [State.globallyEnabled, machine, statusMIE, disabled, Bool.and_false]
  simp only [State.takeable, closed, Bool.false_and]

/-- Settles O13: the registers by `externalReset`, and memory by what it leaves of the instruction in flight. -/
theorem externalResetLeavesTheSpecsValues : Obligations.ExternalResetLeavesTheSpecsValues := by
  rintro s t rfl
  rw [applyEvent]
  refine ⟨externalReset_pc _, externalReset_priv _, ?x0, externalReset_mstatus _, ?translationOff, externalReset_itlb _,
    externalReset_dtlb _, externalReset_msip _, externalReset_mtime _, externalReset_pcTrace _, fun wf a => ?memory,
    externalReset_extIrqM _, externalReset_extIrqS _, externalReset_config _, externalReset_csrsLegal _, ?noInterrupt⟩
  case x0 => rw [externalReset_regs, resetRegs_zero]
  case translationOff =>
    rw [externalReset_satp]
    exact sv32Selected_of_clear (getLsbD_and_clear (by decide) _) (getLsbD_and_clear (by decide) _) _
  case memory =>
    rw [externalReset_mem]
    obtain ⟨-, bytes⟩ := discardInFlight_mem s wf
    exact bytes a
  case noInterrupt =>
    refine pendingInterrupt_of_disabled (externalReset_priv _) ?_
    rw [externalReset_mstatus]
    rfl

end Sys2Proof.Machine
end
